-- ==== Sys2Proof/Word.lean ====
section
/-! DEFINITION. The words of the PDE: register, command word, pixel byte and binary64 pattern
(`00_scope.md` R7, R9; `10_state.md` R10, R12, R13). -/

namespace Sys2Proof

/-- One byte of an address space (`20_memory.md` R50). -/
abbrev Byte := BitVec 8

/-- One register, REG_BITS = 64 (`10_state.md` R10). -/
abbrev Word := BitVec 64

/-- One command word, bits 31:0 of a write to CMD (`30_encoding.md` R90). -/
abbrev CmdWord := BitVec 32

/-- A colour packed into a register or a palette entry (`10_state.md` R12). -/
abbrev ColorWord := BitVec 32

/-- An IEEE 754 binary64 bit pattern (`10_state.md` R13). -/
abbrev F64 := BitVec 64

/-- A buffer selector: image A (0) or image B (1) (`00_scope.md` R9). -/
inductive Sel where
  | a
  | b
deriving DecidableEq, Repr

end Sys2Proof
end

