-- ==== Sys2Proof/Config.lean ====
section
/-! DEFINITION. What one PDE fixes and the spec leaves open: the parameters N_LANES and CMYK_TO_RGB
(`00_scope.md` R7, R8), and the free values of the model. An `opaque` constant has no value that
Lean could know, so a claim proved here holds for every choice of it. -/

namespace Sys2Proof.Config

/-- N_LANES less one. OPEN parameter (`00_scope.md` R7: N_LANES ≥ 1; `10_state.md` R35: it is read in
16 bits, so it is at most 65535). DEDUCED, log entry 1. -/
opaque extraLanes : Fin 65535

/-- N_LANES, the number of row-scan lanes (`00_scope.md` R7). -/
def nLanes : Nat := extraLanes.val + 1

/-- CMYK_TO_RGB (C, M, Y, K), OPEN parameter (`00_scope.md` R8): total, depends on its four arguments alone,
nothing else is known of it. Log entry 2. -/
opaque cmykToRgb : Byte → Byte → Byte → Byte → Byte × Byte × Byte

/-- The n-th unspecified value a run meets (`10_state.md` R17, `70_reset_and_hazards.md` R240). `State.freeCtr`
says which is next. Log entry 3. -/
opaque freeValue : Nat → BitVec 64

/-- The sign and payload bits of a NaN result, which IEEE 754 and the spec leave open; no rule produces one
from inputs the gates let through (`40_color.md` R121 (g), R131). Log entry 4. -/
opaque nanPayload : F64 → F64 → F64

end Sys2Proof.Config
end

