-- ==== Sys2Proof/Machine/Float.lean ====
section
/-! DEFINITION. IEEE 754 binary64 arithmetic, exact and rounded once to nearest, ties to even, and the
literals of the document (`40_color.md` R120 to R122). A finite pattern is an integer multiple of 2^-1074, its
`fVal`; sums, products and quotients are formed exactly on those integers and narrowed by `fRound`. -/

namespace Sys2Proof.Machine

/-! ### Reading a pattern (`10_state.md` R13) -/

/-- The sign, bit 63. -/
def fSign (x : F64) : Bool := x.msb

/-- The exponent field, bits 62:52. -/
def fExp (x : F64) : Nat := (x.extractLsb' 52 11).toNat

/-- The fraction field, bits 51:0. -/
def fFrac (x : F64) : Nat := (x.extractLsb' 0 52).toNat

/-- Not a number. -/
def fIsNaN (x : F64) : Bool := fExp x == 2047 && fFrac x != 0

/-- Plus or minus infinity. -/
def fIsInf (x : F64) : Bool := fExp x == 2047 && fFrac x == 0

/-- Plus or minus zero. -/
def fIsZero (x : F64) : Bool := fExp x == 0 && fFrac x == 0

/-- The unit: the real value 1.0 is this many times 2^-1074. -/
def fOne : Nat := 2 ^ 1074

/-- The magnitude of a pattern that is no NaN, in units of 2^-1074. An infinity comes out larger than every
finite magnitude, which is all the comparisons need. -/
def fMag (x : F64) : Nat :=
  if fExp x = 0 then fFrac x else (2 ^ 52 + fFrac x) * 2 ^ (fExp x - 1)

/-- The value of a pattern that is no NaN, in units of 2^-1074. -/
def fVal (x : F64) : Int :=
  if fSign x then -(fMag x : Int) else (fMag x : Int)

/-! ### Rounding (`40_color.md` R121 (a), (d)) -/

/-- How many low bits the rounding drops, for the magnitude num/den in units of 2^-1074: none while it fits 53
bits, so subnormal results are kept. -/
def roundShift (num den : Nat) : Nat := Nat.log2 (num / den) - 52

/-- num/d to the nearest integer, ties to even. -/
def nearestEven (num d : Nat) : Nat :=
  if d < 2 * (num % d) ∨ (2 * (num % d) = d ∧ num / d % 2 = 1) then num / d + 1 else num / d

/-- The pattern of +infinity as a number. -/
def infBits : Nat := 2047 * 2 ^ 52

/-- Bits 62:0 of the f64 nearest to num/den units of 2^-1074. The exponent field and the fraction are one number,
so a rounding that carries out of the fraction raises the exponent; past the largest finite value it is infinity. -/
def roundBits (num den : Nat) : Nat :=
  min (roundShift num den * 2 ^ 52 + nearestEven num (den * 2 ^ roundShift num den)) infBits

/-- The pattern with the given sign and bits 62:0. -/
def fPattern (neg : Bool) (bits : Nat) : F64 :=
  BitVec.ofNat 64 (if neg then 2 ^ 63 + bits else bits)

/-- The f64 nearest to plus or minus num/den units of 2^-1074. -/
def fRound (neg : Bool) (num den : Nat) : F64 := fPattern neg (roundBits num den)

/-- A quiet NaN. Which one is open, and no rule reaches it (`40_color.md` R121 (g)). Log entry 4. -/
def fNaN (x y : F64) : F64 := 0x7FF8000000000000#64 ||| Config.nanPayload x y

/-- +0.0 or -0.0. -/
def fZero (neg : Bool) : F64 := fPattern neg 0

/-- Plus or minus infinity. -/
def fInf (neg : Bool) : F64 := fPattern neg infBits

/-! ### The operations (`40_color.md` R121) -/

/-- The sign bit inverted. -/
def fneg (x : F64) : F64 := x ^^^ 0x8000000000000000#64

/-- The sign bit cleared (`00_scope.md` R9). -/
def fabs (x : F64) : F64 := x &&& 0x7FFFFFFFFFFFFFFF#64

/-- The sum of two finite values. An exact sum of 0 is +0.0 unless both operands carry the minus sign. -/
def faddFinite (x y : F64) : F64 :=
  if fVal x + fVal y = 0 then fZero (fSign x && fSign y)
  else fRound (decide (fVal x + fVal y < 0)) (fVal x + fVal y).natAbs 1

/-- `fadd` (`00_scope.md` R9). -/
def fadd (x y : F64) : F64 :=
  if fIsNaN x || fIsNaN y then fNaN x y
  else if fIsInf x then (if fIsInf y && (fSign x != fSign y) then fNaN x y else x)
  else if fIsInf y then y
  else faddFinite x y

/-- `fsub` (`00_scope.md` R9). -/
def fsub (x y : F64) : F64 := fadd x (fneg y)

/-- The product of two finite values. -/
def fmulFinite (x y : F64) : F64 :=
  fRound (fSign x != fSign y) (fMag x * fMag y) fOne

/-- `fmul` (`00_scope.md` R9). -/
def fmul (x y : F64) : F64 :=
  if fIsNaN x || fIsNaN y then fNaN x y
  else if fIsInf x || fIsInf y then
    (if fIsZero x || fIsZero y then fNaN x y else fInf (fSign x != fSign y))
  else fmulFinite x y

/-- The quotient of two finite values, the divisor not zero. -/
def fdivFinite (x y : F64) : F64 :=
  fRound (fSign x != fSign y) (fMag x * fOne) (fMag y)

/-- `fdiv` (`00_scope.md` R9). -/
def fdiv (x y : F64) : F64 :=
  if fIsNaN x || fIsNaN y then fNaN x y
  else if fIsInf x then (if fIsInf y then fNaN x y else fInf (fSign x != fSign y))
  else if fIsInf y then fZero (fSign x != fSign y)
  else if fIsZero y then (if fIsZero x then fNaN x y else fInf (fSign x != fSign y))
  else fdivFinite x y

/-- `f64(n)`, exact for every integer below 2^53 (`40_color.md` R121 (e)). -/
def f64OfNat (n : Nat) : F64 := fRound false (n * fOne) 1

/-- `f64` of an 8-bit component. -/
def f64OfByte (c : Byte) : F64 := f64OfNat c.toNat

/-! ### Comparisons: false on a NaN, -0 equals +0 (`00_scope.md` R9) -/

/-- `x == y`. -/
def feq (x y : F64) : Bool := !fIsNaN x && !fIsNaN y && decide (fVal x = fVal y)

/-- `x < y`. -/
def flt (x y : F64) : Bool := !fIsNaN x && !fIsNaN y && decide (fVal x < fVal y)

/-- `x <= y`. -/
def fle (x y : F64) : Bool := !fIsNaN x && !fIsNaN y && decide (fVal x ≤ fVal y)

/-- `trunc_u8(v)`, for 0 ≤ v ≤ 255 (`00_scope.md` R9). -/
def truncU8 (v : F64) : Byte := BitVec.ofNat 8 ((fVal v).toNat / fOne)

/-! ### The literals (`40_color.md` R122) -/

/-- +0.0. -/
def cZero : F64 := 0x0000000000000000#64

/-- 1.0, the upper end of the options' range (`60_exceptions.md` R205). -/
def cOne : F64 := 0x3FF0000000000000#64

/-- CY_R = 0.29889531. -/
def cyR : F64 := 0x3FD32119CB582D94#64

/-- CY_G = 0.58662247. -/
def cyG : F64 := 0x3FE2C59C7C77F5B0#64

/-- CY_B = 0.11448223. -/
def cyB : F64 := 0x3FBD4EB519D2B9F7#64

/-- CI_R = 0.59597799. -/
def ciR : F64 := 0x3FE312406F05F232#64

/-- CI_G = 0.27417610. -/
def ciG : F64 := 0x3FD18C19E9B6119F#64

/-- CI_B = 0.32180189. -/
def ciB : F64 := 0x3FD49866F455D2C5#64

/-- CQ_R = 0.21147017. -/
def cqR : F64 := 0x3FCB11745C1D623C#64

/-- CQ_G = 0.52261711. -/
def cqG : F64 := 0x3FE0B9478478F60B#64

/-- CQ_B = 0.31114694. -/
def cqB : F64 := 0x3FD3E9D4DAE33AF8#64

/-- W_Y = 0.5053. -/
def wY : F64 := 0x3FE02B6AE7D566CF#64

/-- W_I = 0.299. -/
def wI : F64 := 0x3FD322D0E5604189#64

/-- W_Q = 0.1957. -/
def wQ : F64 := 0x3FC90CB295E9E1B1#64

/-- Y_MAX = 35215. -/
def yMax : F64 := 0x40E131E000000000#64

/-- C255 = 255. -/
def c255 : F64 := 0x406FE00000000000#64

end Sys2Proof.Machine
end

