-- ==== Sys2Proof/Syntax.lean ====
section
/-! DEFINITION. The twelve commands of the PDE, one constructor per row of `spec/opcode_table.json`
(`30_encoding.md` R91, R92). -/

namespace Sys2Proof

/-- A command with its operands from the command word (`30_encoding.md` R93). Every other operand is read
from registers. -/
inductive Instr where
  /-- CMP, `compare(a, b, options)` (`43_compare.md` R180). -/
  | cmp
  /-- PIXEL, the comparator on the one pixel PT_P (`43_compare.md` R177). -/
  | pixel
  /-- DIMEQ, `dimensions_equal` (`43_compare.md` R173). -/
  | dimeq
  /-- IDENT, `identical_bytes` (`43_compare.md` R174). -/
  | ident
  /-- POS, `position` in buffer SEL1 (`43_compare.md` R170). -/
  | pos (sel1 : Sel)
  /-- RDPIX, the canonical read in buffer SEL1 (`43_compare.md` R171). -/
  | rdpix (sel1 : Sel)
  /-- YIQ of the colour COLIN (`40_color.md` R126). -/
  | yiq
  /-- BLENDW, COLIN blended over white (`40_color.md` R128). -/
  | blendw
  /-- GRAYBL, the gray blend of COLIN with ALPHA (`40_color.md` R130). -/
  | graybl
  /-- CDELTA, `color_delta`, brightness-only when ONLY_Y is set (`41_delta.md` R149). -/
  | cdelta (onlyY : Bool) (sel1 sel2 : Sel)
  /-- SAMENB, `same_neighbors` with threshold N (`42_neighborhood.md` R154). -/
  | samenb (sel1 : Sel) (n : Nat)
  /-- AA, `antialiased(SEL1, SEL2, PT_P)` (`42_neighborhood.md` R160). -/
  | aa (sel1 sel2 : Sel)
deriving DecidableEq, Repr

end Sys2Proof
end

