-- ==== Sys2Proof/WellFormed.lean ====
section
/-! DEFINITION. Which terms of `Instr` are commands a word can carry. The selectors and ONLY_Y are one bit
each and cannot be out of range; N is a 4-bit field (`30_encoding.md` R90). N = 0 is a legal word that the
command itself refuses (`30_encoding.md` R94), so it is well-formed here. -/

namespace Sys2Proof

/-- N fits the field 15:12 of the command word (`30_encoding.md` R90). -/
def nFits (n : Nat) : Bool := decide (n < 16)

/-- The instruction can be written as a command word. -/
def Instr.wellFormed : Instr → Bool
  | .cmp => true
  | .pixel => true
  | .dimeq => true
  | .ident => true
  | .pos _ => true
  | .rdpix _ => true
  | .yiq => true
  | .blendw => true
  | .graybl => true
  | .cdelta _ _ _ => true
  | .samenb _ n => nFits n
  | .aa _ _ => true

end Sys2Proof
end

