-- ==== Sys2Proof/Decode.lean ====
section
/-! DEFINITION. The command decoder and, after it, the encoder (`30_encoding.md` R90, R91, R94, R97, R98). -/

namespace Sys2Proof

/-- Why a word is no command: the three grounds of `30_encoding.md` R94. All of them lead to ILLEGAL_COMMAND. -/
inductive DecodeError where
  /-- OP is 0x00 or at least 0x0D. -/
  | unassignedOpcode
  /-- Bit 11 or one of the bits 31:16 is set. -/
  | reservedBits
  /-- A field is set that the command does not use. -/
  | unusedField
deriving DecidableEq, Repr

/-- The operand fields of a command word (`30_encoding.md` R90). -/
structure Fields where
  onlyY : Bool
  sel1 : Sel
  sel2 : Sel
  n : Nat
deriving DecidableEq, Repr

/-- A selector bit: 0 is buffer A, 1 is buffer B (`30_encoding.md` R90). -/
def selOfBit (bit : Bool) : Sel :=
  if bit then .b else .a

/-- The selector bit of a buffer (`30_encoding.md` R97). -/
def selBit : Sel → Bool
  | .a => false
  | .b => true

/-- The fields ONLY_Y (8), SEL1 (9), SEL2 (10) and N (15:12) of a word (`30_encoding.md` R98). -/
def fieldsOf (w : CmdWord) : Fields :=
  { onlyY := w.getLsbD 8
    sel1 := selOfBit (w.getLsbD 9)
    sel2 := selOfBit (w.getLsbD 10)
    n := (w.extractLsb' 12 4).toNat }

/-- OP, bits 7:0 (`30_encoding.md` R90). -/
def opOf (w : CmdWord) : BitVec 8 := w.extractLsb' 0 8

/-- A row of the table of `30_encoding.md` R91. -/
inductive Row where
  | cmp | pixel | dimeq | ident | pos | rdpix | yiq | blendw | graybl | cdelta | samenb | aa
deriving DecidableEq, Repr

/-- The rows in the table's order. -/
def allRows : List Row :=
  [.cmp, .pixel, .dimeq, .ident, .pos, .rdpix, .yiq, .blendw, .graybl, .cdelta, .samenb, .aa]

/-- The column "mask" (`30_encoding.md` R91). -/
def rowMask : Row → CmdWord
  | .cmp => 0xFFFFFFFF#32
  | .pixel => 0xFFFFFFFF#32
  | .dimeq => 0xFFFFFFFF#32
  | .ident => 0xFFFFFFFF#32
  | .pos => 0xFFFFFDFF#32
  | .rdpix => 0xFFFFFDFF#32
  | .yiq => 0xFFFFFFFF#32
  | .blendw => 0xFFFFFFFF#32
  | .graybl => 0xFFFFFFFF#32
  | .cdelta => 0xFFFFF8FF#32
  | .samenb => 0xFFFF0DFF#32
  | .aa => 0xFFFFF9FF#32

/-- The column "match" (`30_encoding.md` R91). -/
def rowMatch : Row → CmdWord
  | .cmp => 0x00000001#32
  | .pixel => 0x00000002#32
  | .dimeq => 0x00000003#32
  | .ident => 0x00000004#32
  | .pos => 0x00000005#32
  | .rdpix => 0x00000006#32
  | .yiq => 0x00000007#32
  | .blendw => 0x00000008#32
  | .graybl => 0x00000009#32
  | .cdelta => 0x0000000A#32
  | .samenb => 0x0000000B#32
  | .aa => 0x0000000C#32

/-- A word is the command of a row iff `(w & mask) = match` (`30_encoding.md` R91). -/
def rowMatches (w : CmdWord) (r : Row) : Bool :=
  w &&& rowMask r == rowMatch r

/-- The command of a row with the fields the row uses (`30_encoding.md` R91, R98). -/
def rowInstr (f : Fields) : Row → Instr
  | .cmp => .cmp
  | .pixel => .pixel
  | .dimeq => .dimeq
  | .ident => .ident
  | .pos => .pos f.sel1
  | .rdpix => .rdpix f.sel1
  | .yiq => .yiq
  | .blendw => .blendw
  | .graybl => .graybl
  | .cdelta => .cdelta f.onlyY f.sel1 f.sel2
  | .samenb => .samenb f.sel1 f.n
  | .aa => .aa f.sel1 f.sel2

/-- Why a word that matches no row is refused (`30_encoding.md` R94), the opcode first. -/
def rejection (w : CmdWord) : DecodeError :=
  if opOf w = 0x00#8 ∨ 0x0D#8 ≤ opOf w then .unassignedOpcode
  else if w &&& 0xFFFF0800#32 ≠ 0#32 then .reservedBits
  else .unusedField

/-- The decoding procedure (`30_encoding.md` R98). -/
def decodeWord (w : CmdWord) : Except DecodeError Instr :=
  match allRows.find? (rowMatches w) with
  | some r => .ok (rowInstr (fieldsOf w) r)
  | none => .error (rejection w)

/-- The decoder on the 64-bit value written to CMD: bits 63:32 are ignored (`10_state.md` R15). -/
def decodeCmdValue (v : Word) : Except DecodeError Instr :=
  decodeWord (v.setWidth 32)

/-- The host's question: the instruction of the word w of a table row. A command is one 32-bit word
(`30_encoding.md` R95), so the bits above `nbits` are 0 and there is no second word. -/
def decodeTableWord (nbits w : Nat) : Option Instr :=
  match decodeWord (BitVec.ofNat 32 (w % 2 ^ nbits)) with
  | .ok i => some i
  | .error _ => none

/-! ### The encoder (`30_encoding.md` R97) -/

/-- ONLY_Y in bit 8. -/
def onlyYField (b : Bool) : CmdWord := if b then 0x00000100#32 else 0#32

/-- SEL1 in bit 9. -/
def sel1Field (s : Sel) : CmdWord := if selBit s then 0x00000200#32 else 0#32

/-- SEL2 in bit 10. -/
def sel2Field (s : Sel) : CmdWord := if selBit s then 0x00000400#32 else 0#32

/-- N in bits 15:12. -/
def nField (n : Nat) : CmdWord := BitVec.ofNat 32 n <<< 12

/-- The word a command assembles to (`30_encoding.md` R97). -/
def encode : Instr → CmdWord
  | .cmp => 0x00000001#32
  | .pixel => 0x00000002#32
  | .dimeq => 0x00000003#32
  | .ident => 0x00000004#32
  | .pos s => 0x00000005#32 ||| sel1Field s
  | .rdpix s => 0x00000006#32 ||| sel1Field s
  | .yiq => 0x00000007#32
  | .blendw => 0x00000008#32
  | .graybl => 0x00000009#32
  | .cdelta y s1 s2 => 0x0000000A#32 ||| onlyYField y ||| sel1Field s1 ||| sel2Field s2
  | .samenb s n => 0x0000000B#32 ||| sel1Field s ||| nField n
  | .aa s1 s2 => 0x0000000C#32 ||| sel1Field s1 ||| sel2Field s2

end Sys2Proof
end

