-- ==== Sys2Proof/Machine/State.lean ====
section
/-! DEFINITION. Everything the spec gives the PDE to hold (`10_state.md`, `20_memory.md` R50), as plain data,
and the state after reset (`10_state.md` R41). INVENTORY.md lists each field with its rule. -/

namespace Sys2Proof.Machine

/-! ### Values -/

/-- A canonical colour, four integers 0..255 (`00_scope.md` R9). -/
structure Color where
  r : Byte
  g : Byte
  b : Byte
  a : Byte
deriving DecidableEq, Repr

/-- A point: column x, row y, origin at the top-left pixel (`00_scope.md` R9). Integers of the PDE are exact
(`20_memory.md` R79). -/
structure Point where
  x : Nat
  y : Nat
deriving DecidableEq, Repr

/-- The comparator's class of a pixel (`43_compare.md` R172). -/
inductive PixelClass where
  | unchanged
  | antialiased
  | different
deriving DecidableEq, Repr

/-! ### Errors a command can end with -/

/-- The sub-causes of BAD_PARAM (`60_exceptions.md` R205). -/
inductive BadParam where
  /-- S < W·B of the buffer. -/
  | stride (buf : Sel)
  /-- LEN < S·H of the buffer. -/
  | len (buf : Sel)
  /-- THRESHOLD is not in [0,1]. -/
  | thresholdRange
  /-- ALPHA is not in [0,1]. -/
  | alphaRange
  /-- PT_P lies outside its buffer. -/
  | pointP
  /-- PT_Q lies outside buffer SEL2. -/
  | pointQ
  /-- N = 0 in SAMENB. -/
  | nRange
deriving DecidableEq, Repr

/-- The error kinds of `60_exceptions.md` R201 with what ERRINFO tells of them. Codes 6 and 7 are never
produced and have no constructor. -/
inductive CmdError where
  | emptyImage
  | dimensionsMismatch
  | unsupportedFormat (buf : Sel)
  | badParam (cause : BadParam)
  | illegalCommand
deriving DecidableEq, Repr

/-! ### Registers -/

/-- FLAGS (`10_state.md` R20). -/
structure Flags where
  includeAa : Bool
  diffMask : Bool
  outputEn : Bool
  altValid : Bool
deriving DecidableEq, Repr

/-- The option registers (`10_state.md` R18 to R23). -/
structure Options where
  flags : Flags
  threshold : F64
  alpha : F64
  aaColor : ColorWord
  diffColor : ColorWord
  diffColorAlt : ColorWord
deriving DecidableEq, Repr

/-- The descriptor of one buffer: its DIMS, LAYOUT and LEN registers (`10_state.md` R24, R25, R26). BPP is
derived from `model`, so it is not stored. -/
structure Desc where
  w : BitVec 16
  h : BitVec 16
  stride : BitVec 24
  model : BitVec 4
  len : BitVec 40
deriving DecidableEq, Repr

/-- PT_P or PT_Q (`10_state.md` R27). -/
structure PointReg where
  x : BitVec 16
  y : BitVec 16
deriving DecidableEq, Repr

/-- The result registers (`10_state.md` R29 to R34). RESB is held as its three fields. -/
structure Results where
  count : BitVec 32
  res0 : F64
  res1 : F64
  res2 : F64
  resc : ColorWord
  resBool : Bool
  resClass : PixelClass
  resWr : Bool
  resp : BitVec 40
  maxDelta : F64
deriving DecidableEq, Repr

/-- STATUS less BUSY (`10_state.md` R16); ERR and ERRINFO are views of `err`, and BUSY is a view of
`State.engine`. -/
structure Status where
  done : Bool
  outValid : Bool
  dropped : Bool
  err : Option CmdError
deriving DecidableEq, Repr

/-! ### Hidden state -/

/-- What the sequencer is doing (`10_state.md` R39). -/
inductive Engine where
  /-- No command: BUSY = 0. -/
  | idle
  /-- A command is accepted, its word latched, its own rule not yet carried out: BUSY = 1. Log entry 11. -/
  | accepted (word : CmdWord)
  /-- A CMP is between its step 4 and the join barrier: BUSY = 1. -/
  | scanning
deriving DecidableEq, Repr

/-- One row-scan lane (`10_state.md` R36). -/
structure Lane where
  active : Bool
  y : Nat
  x : Nat
  tally : Nat
deriving DecidableEq, Repr

/-- A lane after reset and after acceptance (`10_state.md` R36). -/
def Lane.clear : Lane := { active := false, y := 0, x := 0, tally := 0 }

/-- The lanes by index, ascending; a lane that is not listed is `Lane.clear`, and none listed is. -/
abbrev LaneTable := List (Nat × Lane)

/-- The scan position (`10_state.md` R36). -/
structure Scan where
  rowNext : Nat
  lanes : LaneTable
deriving DecidableEq, Repr

/-! ### Address spaces -/

/-- A byte space, ascending by offset; a byte that is not listed has been written by nothing since reset and
has no value (`20_memory.md` R54). -/
abbrev Memory := List Host.Cell

/-- A palette RAM, ascending by entry number; an entry that is not listed has no value (`20_memory.md` R53, R54). -/
abbrev PalRam := List (Nat × ColorWord)

/-- The three byte spaces (`20_memory.md` R50). -/
inductive ByteSpace where
  | imgA
  | imgB
  | out
deriving DecidableEq, Repr

/-- The five address spaces (`20_memory.md` R50). -/
structure Spaces where
  imgA : Memory
  imgB : Memory
  out : Memory
  palA : PalRam
  palB : PalRam
deriving DecidableEq, Repr

/-! ### The host -/

/-- The registers, in the order of their numbers 0x00 to 0x1A (`10_state.md` R10). -/
inductive Reg where
  | id | cmd | status | flags | threshold | alpha | aaColor | diffColor | diffColorAlt
  | aDims | aLayout | aLen | bDims | bLayout | bLen | ptP | ptQ | colin
  | count | res0 | res1 | res2 | resc | resb | resp | maxDelta | lanes
deriving DecidableEq, Repr

/-- One thing the outside does or lets happen next (`60_exceptions.md` R219, `30_encoding.md` R96). The list
of them is the model's input. -/
inductive Event where
  /-- The host writes `nbytes` bytes at a byte address of the register window (`10_state.md` R10). -/
  | regWrite (addr nbytes : Nat) (v : Word)
  /-- The host reads `nbytes` bytes at a byte address of the register window. -/
  | regRead (addr nbytes : Nat)
  /-- The host writes a byte of a byte space (`20_memory.md` R54). -/
  | store (space : ByteSpace) (off : Nat) (v : Byte)
  /-- The host reads a byte of a byte space. -/
  | load (space : ByteSpace) (off : Nat)
  /-- The host writes a palette entry. -/
  | palStore (buf : Sel) (entry : Nat) (v : ColorWord)
  /-- The host reads a palette entry. -/
  | palLoad (buf : Sel) (entry : Nat)
  /-- The host polls STATUS until BUSY = 0 (`30_encoding.md` R97, WAIT). -/
  | wait
  /-- The PDE moves before the host does anything more; in a scan it is the named lane that moves
  (`43_compare.md` R191). -/
  | engine (lane : Nat)
  /-- The hardware reset (`70_reset_and_hazards.md` R230). -/
  | reset
deriving DecidableEq, Repr

/-! ### The state -/

/-- The PDE and what it is about to be given. -/
structure State where
  /-- FLAGS, THRESHOLD, ALPHA, AA_COLOR, DIFF_COLOR, DIFF_COLOR_ALT. -/
  opts : Options
  /-- A_DIMS, A_LAYOUT, A_LEN. -/
  descA : Desc
  /-- B_DIMS, B_LAYOUT, B_LEN. -/
  descB : Desc
  ptP : PointReg
  ptQ : PointReg
  colin : ColorWord
  /-- COUNT, RES0, RES1, RES2, RESC, RESB, RESP, MAXDELTA. -/
  res : Results
  /-- DONE, OUTVALID, DROPPED, ERR, ERRINFO. -/
  status : Status
  /-- BUSY and the latched command. -/
  engine : Engine
  /-- ROWNEXT and the lanes. -/
  scan : Scan
  /-- IMG_A, IMG_B, OUT, PAL_A, PAL_B. -/
  mem : Spaces
  /-- The model's own: the host has touched an address space since the running command was accepted
  (`70_reset_and_hazards.md` R240). Log entry 6. -/
  touched : Bool
  /-- The model's own: how many free values have been used (`Config.freeValue`). Log entry 3. -/
  freeCtr : Nat
  /-- The model's own: what the host's last read returned, zero-extended. Log entry 5. -/
  hostData : Word
  /-- The model's own: the events to come, soonest first. Log entry 5. -/
  inbox : List Event
deriving DecidableEq, Repr

/-! ### Reasons to stop -/

/-- Faults: the model's own, no STATUS error (`20_memory.md` R54). -/
inductive Fault where
  /-- A command needs an image byte nothing has written since reset (`20_memory.md` R54: "a model gives it no
  value and faults"). Raised by every command that reads a pixel or an image, and by the scan. Safe: the chip
  goes on with whatever the RAM holds. -/
  | unwrittenByte (buf : Sel) (off : Nat)
  /-- A command needs a palette entry nothing has written since reset (`20_memory.md` R54, R68). Raised by the
  canonical read of a Paletted pixel. Safe. -/
  | unwrittenEntry (buf : Sel) (entry : Nat)
  /-- A canonical read of a buffer whose MODEL is a reserved code. No run from reset raises it: every command
  ends with UNSUPPORTED_FORMAT first (`60_exceptions.md` R204, R212). Safe. -/
  | noColourModel (buf : Sel)
  /-- The host names an offset or an entry outside the space (`20_memory.md` R50: 2^40 bytes, 2^34 bytes, 256
  entries). Raised by the host's store and load events. Safe. -/
  | outsideSpace
deriving DecidableEq, Repr

/-- Refusals: the spec gives the trace no meaning. -/
inductive Refusal where
  /-- An instruction that has no meaning yet. Raised by no arm of `exec` now. Safe. -/
  | notModelled (mnemonic : String)
  /-- A register-window access that is not 64 bits wide or not aligned to 8 bytes (`10_state.md` R10: "a model
  refuses them"). Raised by the host's register events. Safe. -/
  | partialRegisterAccess
  /-- A host read of a byte or palette entry nothing has written since reset
  (`93_implementation_defined.md` I9: "a host read of one is refuse"). Safe. -/
  | hostReadUnwritten
deriving DecidableEq, Repr

/-! ### Reset -/

/-- The option registers after reset, the document's defaults (`10_state.md` R41). -/
def Options.reset : Options :=
  { flags := { includeAa := false, diffMask := false, outputEn := false, altValid := false }
    threshold := 0x3FB999999999999A#64
    alpha := 0x3FB999999999999A#64
    aaColor := 0xFFFF00FF#32
    diffColor := 0xFF0000FF#32
    diffColorAlt := 0#32 }

/-- A descriptor after reset: 0 in every stored field (`10_state.md` R41). -/
def Desc.reset : Desc :=
  { w := 0#16, h := 0#16, stride := 0#24, model := 0#4, len := 0#40 }

/-- The result registers after reset and after acceptance (`10_state.md` R41, `60_exceptions.md` R210). -/
def Results.clear : Results :=
  { count := 0#32, res0 := 0#64, res1 := 0#64, res2 := 0#64, resc := 0#32
    resBool := false, resClass := .unchanged, resWr := false, resp := 0#40, maxDelta := 0#64 }

/-- STATUS after reset and after acceptance, BUSY apart (`10_state.md` R41, `60_exceptions.md` R210). -/
def Status.clear : Status :=
  { done := false, outValid := false, dropped := false, err := none }

/-- The scan position after reset and after acceptance (`10_state.md` R41, `60_exceptions.md` R210). -/
def Scan.clear : Scan := { rowNext := 0, lanes := [] }

/-- The five spaces with nothing written (`70_reset_and_hazards.md` R232). -/
def Spaces.unwritten : Spaces :=
  { imgA := [], imgB := [], out := [], palA := [], palB := [] }

/-- The machine right after reset (`10_state.md` R41, `70_reset_and_hazards.md` R231), nothing to come. The
model's own fields: log entries 3, 5, 6. -/
def State.reset : State :=
  { opts := Options.reset
    descA := Desc.reset
    descB := Desc.reset
    ptP := { x := 0#16, y := 0#16 }
    ptQ := { x := 0#16, y := 0#16 }
    colin := 0#32
    res := Results.clear
    status := Status.clear
    engine := .idle
    scan := Scan.clear
    mem := Spaces.unwritten
    touched := false
    freeCtr := 0
    hostData := 0#64
    inbox := [] }

end Sys2Proof.Machine
end

