-- ==== Sys2Proof/Machine/Flags.lean ====
section
/-! DEFINITION. The bit layouts of the registers: what a read of each packs and a write unpacks
(`10_state.md` R12 to R35), and the error codes of STATUS (`60_exceptions.md` R201, R204, R205). The PDE has no
arithmetic condition codes (`10_state.md` R37). -/

namespace Sys2Proof.Machine

/-- A one-bit field at bit k. -/
def bitAt (b : Bool) (k : Nat) : Word := if b then 1#64 <<< k else 0#64

/-! ### Colours (`10_state.md` R12) -/

/-- `pack(R,G,B,A)`. -/
def packColor (c : Color) : ColorWord := c.r ++ c.g ++ c.b ++ c.a

/-- The colour a word packs. -/
def unpackColor (w : ColorWord) : Color :=
  { r := w.extractLsb' 24 8, g := w.extractLsb' 16 8, b := w.extractLsb' 8 8, a := w.extractLsb' 0 8 }

/-! ### STATUS (`10_state.md` R16) -/

/-- BUSY: 1 from the acceptance of a command to its completion. -/
def State.busy (s : State) : Bool :=
  match s.engine with
  | .idle => false
  | .accepted _ => true
  | .scanning => true

/-- STATUS.ERR (`60_exceptions.md` R201). -/
def errCode : Option CmdError → BitVec 3
  | none => 0#3
  | some .emptyImage => 1#3
  | some .dimensionsMismatch => 2#3
  | some (.unsupportedFormat _) => 3#3
  | some (.badParam _) => 4#3
  | some .illegalCommand => 5#3

/-- ERRINFO[2:0] of BAD_PARAM with ERRINFO[3] = 1 for buffer B (`60_exceptions.md` R205). -/
def badParamInfo : BadParam → BitVec 4
  | .stride .a => 1#4
  | .stride .b => 9#4
  | .len .a => 2#4
  | .len .b => 10#4
  | .thresholdRange => 3#4
  | .alphaRange => 4#4
  | .pointP => 5#4
  | .pointQ => 6#4
  | .nRange => 7#4

/-- STATUS.ERRINFO (`60_exceptions.md` R201, R204, R205). -/
def errInfo : Option CmdError → BitVec 4
  | none => 0#4
  | some .emptyImage => 0#4
  | some .dimensionsMismatch => 0#4
  | some (.unsupportedFormat .a) => 0#4
  | some (.unsupportedFormat .b) => 8#4
  | some (.badParam c) => badParamInfo c
  | some .illegalCommand => 0#4

/-- The value STATUS reads: BUSY 0, DONE 1, OUTVALID 2, DROPPED 3, ERR 6:4, ERRINFO 11:8. -/
def packStatus (busy : Bool) (st : Status) : Word :=
  bitAt busy 0 ||| bitAt st.done 1 ||| bitAt st.outValid 2 ||| bitAt st.dropped 3
    ||| ((errCode st.err).setWidth 64 <<< 4) ||| ((errInfo st.err).setWidth 64 <<< 8)

/-! ### FLAGS (`10_state.md` R20) -/

/-- The value FLAGS reads. -/
def packFlags (f : Flags) : Word :=
  bitAt f.includeAa 0 ||| bitAt f.diffMask 1 ||| bitAt f.outputEn 2 ||| bitAt f.altValid 3

/-- What a write stores in FLAGS; bits 63:4 are reserved. -/
def unpackFlags (v : Word) : Flags :=
  { includeAa := v.getLsbD 0, diffMask := v.getLsbD 1, outputEn := v.getLsbD 2, altValid := v.getLsbD 3 }

/-! ### Descriptors and points (`10_state.md` R24 to R27) -/

/-- Bytes per pixel of a model code, 0 for a reserved one (`20_memory.md` R61, `10_state.md` R25). -/
def bytesPerPixel (model : BitVec 4) : Nat :=
  match model.toNat with
  | 0 => 1
  | 1 => 2
  | 2 => 1
  | 3 => 2
  | 4 => 4
  | 5 => 4
  | 6 => 8
  | 7 => 8
  | 8 => 4
  | 9 => 1
  | _ => 0

/-- The value DIMS reads: W in 15:0, H in 31:16. -/
def packDims (d : Desc) : Word := d.w.setWidth 64 ||| (d.h.setWidth 64 <<< 16)

/-- What a write stores in DIMS. -/
def writeDims (v : Word) (d : Desc) : Desc :=
  { d with w := v.extractLsb' 0 16, h := v.extractLsb' 16 16 }

/-- The value LAYOUT reads: S in 23:0, MODEL in 35:32, the derived BPP in 43:40. -/
def packLayout (d : Desc) : Word :=
  d.stride.setWidth 64 ||| (d.model.setWidth 64 <<< 32) ||| (BitVec.ofNat 64 (bytesPerPixel d.model) <<< 40)

/-- What a write stores in LAYOUT; a write to BPP is ignored. -/
def writeLayout (v : Word) (d : Desc) : Desc :=
  { d with stride := v.extractLsb' 0 24, model := v.extractLsb' 32 4 }

/-- What a write stores in LEN, bits 39:0. -/
def writeLen (v : Word) (d : Desc) : Desc :=
  { d with len := v.extractLsb' 0 40 }

/-- The value a point register reads: X in 15:0, Y in 31:16. -/
def packPoint (p : PointReg) : Word := p.x.setWidth 64 ||| (p.y.setWidth 64 <<< 16)

/-- What a write stores in a point register. -/
def unpackPoint (v : Word) : PointReg :=
  { x := v.extractLsb' 0 16, y := v.extractLsb' 16 16 }

/-! ### RESB (`10_state.md` R32) -/

/-- The class code (`43_compare.md` R172). -/
def classCode : PixelClass → BitVec 2
  | .unchanged => 0#2
  | .antialiased => 1#2
  | .different => 2#2

/-- The value RESB reads: BOOL 0, CLASS 2:1, WR 3. -/
def packResb (r : Results) : Word :=
  bitAt r.resBool 0 ||| ((classCode r.resClass).setWidth 64 <<< 1) ||| bitAt r.resWr 3

end Sys2Proof.Machine
end

