-- ==== Sys2Proof/Machine/Ops.lean ====
section
/-! DEFINITION. The named operations over the address spaces, the lanes and the command handshake: the reads and
writes of one cell, the fills, acceptance, the two completions. -/

namespace Sys2Proof.Machine

/-! ### Tables in canonical form: keys strictly rising -/

/-- The entry of a key. -/
def cellGet {α : Type} : List (Nat × α) → Nat → Option α
  | [], _ => none
  | (k, v) :: rest, key => if k = key then some v else cellGet rest key

/-- The table with the key's entry written. -/
def cellPut {α : Type} : List (Nat × α) → Nat → α → List (Nat × α)
  | [], key, v => [(key, v)]
  | (k, u) :: rest, key, v =>
    if key < k then (key, v) :: (k, u) :: rest
    else if key = k then (key, v) :: rest
    else (k, u) :: cellPut rest key v

/-- The table without the key's entry. -/
def cellErase {α : Type} : List (Nat × α) → Nat → List (Nat × α)
  | [], _ => []
  | (k, u) :: rest, key => if k = key then rest else (k, u) :: cellErase rest key

/-- The keys rise strictly and every key is at least `low` and below `size`. -/
def cellsWithin {α : Type} (size : Nat) : Nat → List (Nat × α) → Bool
  | _, [] => true
  | low, (k, _) :: rest => decide (low ≤ k) && decide (k < size) && cellsWithin size (k + 1) rest

/-- A byte space or a palette RAM of the given size is in its one canonical form. An unlisted cell has no value, so no
listed cell can equal what it reads as (`20_memory.md` R54). -/
def Memory.wf {α : Type} (size : Nat) (m : List (Nat × α)) : Bool := cellsWithin size 0 m

/-! ### Sizes (`20_memory.md` R50, `00_scope.md` R7) -/

/-- 2^40 bytes of an image space. -/
def imgSize : Nat := 2 ^ 40

/-- 2^34 bytes of OUT. -/
def outSize : Nat := 2 ^ 34

/-- PAL_ENTRIES. -/
def palSize : Nat := 256

/-- The size of a byte space. -/
def spaceSize : ByteSpace → Nat
  | .imgA => imgSize
  | .imgB => imgSize
  | .out => outSize

/-! ### The spaces (`00_scope.md` R9, `20_memory.md` R50) -/

/-- The bytes of a byte space. -/
def spaceOf (m : Spaces) : ByteSpace → Memory
  | .imgA => m.imgA
  | .imgB => m.imgB
  | .out => m.out

/-- The spaces with one byte space replaced. -/
def setSpace (m : Spaces) (sp : ByteSpace) (bytes : Memory) : Spaces :=
  match sp with
  | .imgA => { m with imgA := bytes }
  | .imgB => { m with imgB := bytes }
  | .out => { m with out := bytes }

/-- `IMG(s)` (`00_scope.md` R9). -/
def imgOf (sel : Sel) : ByteSpace :=
  match sel with
  | .a => .imgA
  | .b => .imgB

/-- `PAL(s)` (`00_scope.md` R9). -/
def palOf (m : Spaces) : Sel → PalRam
  | .a => m.palA
  | .b => m.palB

/-- The spaces with one palette replaced. -/
def setPal (m : Spaces) (sel : Sel) (p : PalRam) : Spaces :=
  match sel with
  | .a => { m with palA := p }
  | .b => { m with palB := p }

/-- `DESC(s)` (`00_scope.md` R9). -/
def State.desc (s : State) : Sel → Desc
  | .a => s.descA
  | .b => s.descB

/-- What a byte of a space holds, none if nothing has written it since reset. -/
def readByte (m : Spaces) (sp : ByteSpace) (off : Nat) : Option Byte := cellGet (spaceOf m sp) off

/-- `MemRead(IMG(s), off, 1)`: a byte the PDE needs (`20_memory.md` R54). -/
def imgByte (s : State) (sel : Sel) (off : Nat) : Except Fault Byte :=
  match readByte s.mem (imgOf sel) off with
  | some v => .ok v
  | none => .error (.unwrittenByte sel off)

/-- `MemRead(IMG(s), off, n)`: n bytes in increasing offset order (`00_scope.md` R9). -/
def imgBytes (s : State) (sel : Sel) : Nat → Nat → Except Fault (List Byte)
  | _, 0 => .ok []
  | off, n + 1 => do
    let v ← imgByte s sel off
    let rest ← imgBytes s sel (off + 1) n
    .ok (v :: rest)

/-- A palette fetch (`20_memory.md` R54, R68). -/
def palEntry (s : State) (sel : Sel) (i : Nat) : Except Fault ColorWord :=
  match cellGet (palOf s.mem sel) i with
  | some v => .ok v
  | none => .error (.unwrittenEntry sel i)

/-- `MemWrite(sp, off, n, v)` on one space's bytes, increasing offsets (`00_scope.md` R9). -/
def writeBytes : Memory → Nat → List Byte → Memory
  | m, _, [] => m
  | m, off, v :: rest => writeBytes (cellPut m off v) (off + 1) rest

/-- Bytes 0 .. n-1 replaced by those of f, every other byte as it was (`20_memory.md` R71). -/
def fillBytes (m : Memory) (n : Nat) (f : Nat → Byte) : Memory :=
  (List.range n).map (fun k => (k, f k)) ++ m.filter (fun c => decide (n ≤ c.1))

/-! ### Lanes (`10_state.md` R36) -/

/-- LANE[i]. -/
def laneGet (t : LaneTable) (i : Nat) : Lane := (cellGet t i).getD Lane.clear

/-- LANE[i] <- l, keeping a clear lane unlisted. -/
def lanePut (t : LaneTable) (i : Nat) (l : Lane) : LaneTable :=
  if l = Lane.clear then cellErase t i else cellPut t i l

/-- i names a lane: 0 ≤ i < N_LANES, and lane 0 is always there (`00_scope.md` R7: N_LANES ≥ 1). -/
def isLane (i : Nat) : Bool :=
  match i with
  | 0 => true
  | k + 1 => decide (k < Config.extraLanes.val)

/-- The lane table is canonical: indexes rising, every index a lane, no clear lane listed. -/
def LaneTable.wf (t : LaneTable) : Bool :=
  cellsWithin Config.nLanes 0 t && t.all (fun e => decide (e.2 ≠ Lane.clear))

/-! ### The command handshake (`60_exceptions.md` R210, R211, R213) -/

/-- Acceptance of the command word w (`60_exceptions.md` R210). -/
def accept (w : CmdWord) (s : State) : State :=
  { s with
    engine := .accepted w
    status := Status.clear
    res := Results.clear
    scan := Scan.clear
    touched := false }

/-- How many bytes of OUT the command's output has, 4·W·H with W and H of A_DIMS (for CMP's output: `20_memory.md` R52,
R70). That A_DIMS also bounds the bytes a forbidden access frees (`70_reset_and_hazards.md` R240) when the command is a
helper or the dimensions differ is a DESIGN CHOICE, log entry 6: the spec does not say whose W and H it means there. -/
def outBytes (s : State) : Nat := 4 * (s.descA.w.toNat * s.descA.h.toNat)

/-- What a forbidden host access leaves of the command it fell into: COUNT, MAXDELTA and OUT bytes 0 .. 4·W·H-1 hold
any values, everything else is as the rules say (`70_reset_and_hazards.md` R240). Log entry 6. -/
def scramble (s : State) : State :=
  { s with
    res := { s.res with
      count := (Config.freeValue s.freeCtr).setWidth 32
      maxDelta := Config.freeValue (s.freeCtr + 1) }
    mem := { s.mem with
      out := fillBytes s.mem.out (outBytes s)
        (fun k => (Config.freeValue (s.freeCtr + 2 + k)).setWidth 8) }
    freeCtr := s.freeCtr + 2 + outBytes s
    touched := false }

/-- The end of a command with the given ERR: BUSY <- 0, DONE <- 1 (`60_exceptions.md` R211, R213). -/
def finish (e : Option CmdError) (s : State) : State :=
  { s with engine := .idle, status := { s.status with done := true, err := e } }

/-- Completion, with the effect of a forbidden host access if there was one. -/
def complete (e : Option CmdError) (s : State) : State :=
  if s.touched then scramble (finish e s) else finish e s

/-- Completion without an error (`60_exceptions.md` R213). -/
def succeed (s : State) : State := complete none s

/-- `raise E(info)`: completion with an error (`60_exceptions.md` R211). The PDE's only "trap entry": no state is saved,
no mode changes, control goes nowhere, and there is no return. -/
def raiseError (e : CmdError) (s : State) : State := complete (some e) s

/-! ### How a meaning ends -/

/-- The outcome of a computation that may need an unwritten byte. -/
def settle (r : Except Fault State) : Host.Outcome State Fault Refusal :=
  match r with
  | .ok t => .next t
  | .error f => .fault f

/-- A command behind its gates: the first gate that fires ends it (`60_exceptions.md` R212). -/
def behindGates (gate : Option CmdError) (s : State) (body : Except Fault State) :
    Host.Outcome State Fault Refusal :=
  match gate with
  | some e => .next (raiseError e s)
  | none => settle body

end Sys2Proof.Machine
end

