-- ==== Sys2Proof/Machine/Operands.lean ====
section
/-! DEFINITION. The operand forms: descriptors, points, the pixel fetch in all ten colour models
(`20_memory.md` R61 to R69) and the common precheck (`60_exceptions.md` R212). -/

namespace Sys2Proof.Machine

/-! ### Descriptors as integers (`20_memory.md` R79) -/

/-- W. -/
def Desc.width (d : Desc) : Nat := d.w.toNat

/-- H. -/
def Desc.height (d : Desc) : Nat := d.h.toNat

/-- S. -/
def Desc.rowBytes (d : Desc) : Nat := d.stride.toNat

/-- LEN. -/
def Desc.length (d : Desc) : Nat := d.len.toNat

/-- B, the bytes per pixel (`20_memory.md` R61). -/
def Desc.bpp (d : Desc) : Nat := bytesPerPixel d.model

/-- The buffer is empty (`10_state.md` R24). -/
def Desc.empty (d : Desc) : Bool := decide (d.width = 0) || decide (d.height = 0)

/-- The rectangles are equal (`60_exceptions.md` R203). -/
def sameDims (d e : Desc) : Bool := decide (d.width = e.width) && decide (d.height = e.height)

/-- The point of a point register. -/
def PointReg.point (p : PointReg) : Point := { x := p.x.toNat, y := p.y.toNat }

/-- The point lies inside the buffer's rectangle. -/
def Desc.inside (d : Desc) (p : Point) : Bool := decide (p.x < d.width) && decide (p.y < d.height)

/-- `VALID(s)` (`20_memory.md` R78). -/
def Desc.valid (d : Desc) : Bool :=
  decide (d.model.toNat ≤ 9) && decide (d.width * d.bpp ≤ d.rowBytes) && decide (d.rowBytes * d.height ≤ d.length)

/-! ### The pixel fetch -/

/-- `offset(s, x, y)` (`20_memory.md` R62). -/
def pixelOffset (d : Desc) (p : Point) : Nat := p.y * d.rowBytes + p.x * d.bpp

/-- `raw(s, x, y)` (`20_memory.md` R63). -/
def rawPixel (s : State) (sel : Sel) (p : Point) : Except Fault (List Byte) :=
  imgBytes s sel (pixelOffset (s.desc sel) p) (s.desc sel).bpp

/-- Gray8 and Gray16: R = G = B = luminance, the byte at the lower offset (`20_memory.md` R55, R64). -/
def canonGray (s : State) (sel : Sel) (off : Nat) : Except Fault Color := do
  let v ← imgByte s sel off
  .ok { r := v, g := v, b := v, a := 255#8 }

/-- Alpha8 and Alpha16 (`20_memory.md` R65). -/
def canonAlpha (s : State) (sel : Sel) (off : Nat) : Except Fault Color := do
  let v ← imgByte s sel off
  .ok { r := 255#8, g := 255#8, b := 255#8, a := v }

/-- RGBA and NRGBA with `step` bytes per channel, of which the first is the canonical value: step 1 for the 8-bit
models (`20_memory.md` R66), step 2 for the 16-bit models (`20_memory.md` R67). -/
def canonRgba (s : State) (sel : Sel) (off step : Nat) : Except Fault Color := do
  let r ← imgByte s sel off
  let g ← imgByte s sel (off + step)
  let b ← imgByte s sel (off + 2 * step)
  let a ← imgByte s sel (off + 3 * step)
  .ok { r := r, g := g, b := b, a := a }

/-- CMYK, through the open parameter (`20_memory.md` R69). -/
def canonCmyk (s : State) (sel : Sel) (off : Nat) : Except Fault Color := do
  let c ← imgByte s sel off
  let m ← imgByte s sel (off + 1)
  let y ← imgByte s sel (off + 2)
  let k ← imgByte s sel (off + 3)
  let rgb := Config.cmykToRgb c m y k
  .ok { r := rgb.1, g := rgb.2.1, b := rgb.2.2, a := 255#8 }

/-- Paletted: the byte is an index, the entry is the colour (`20_memory.md` R68). -/
def canonPaletted (s : State) (sel : Sel) (off : Nat) : Except Fault Color := do
  let i ← imgByte s sel off
  let e ← palEntry s sel i.toNat
  .ok (unpackColor e)

/-- `canon(s, x, y)`, the canonical 8-bit read (`20_memory.md` R61, R64 to R69). -/
def canonPixel (s : State) (sel : Sel) (p : Point) : Except Fault Color :=
  match (s.desc sel).model.toNat with
  | 0 => canonGray s sel (pixelOffset (s.desc sel) p)
  | 1 => canonGray s sel (pixelOffset (s.desc sel) p)
  | 2 => canonAlpha s sel (pixelOffset (s.desc sel) p)
  | 3 => canonAlpha s sel (pixelOffset (s.desc sel) p)
  | 4 => canonRgba s sel (pixelOffset (s.desc sel) p) 1
  | 5 => canonRgba s sel (pixelOffset (s.desc sel) p) 1
  | 6 => canonRgba s sel (pixelOffset (s.desc sel) p) 2
  | 7 => canonRgba s sel (pixelOffset (s.desc sel) p) 2
  | 8 => canonCmyk s sel (pixelOffset (s.desc sel) p)
  | 9 => canonPaletted s sel (pixelOffset (s.desc sel) p)
  | _ => .error (.noColourModel sel)

/-- `identical_bytes(A, B)`: arrays of equal length are read whole and compared, arrays of different length are not
identical and not read (`20_memory.md` R72, `70_reset_and_hazards.md` R235). -/
def identicalBytes (s : State) : Except Fault Bool :=
  if s.descA.length = s.descB.length then do
    let a ← imgBytes s .a 0 s.descA.length
    let b ← imgBytes s .b 0 s.descB.length
    .ok (decide (a = b))
  else .ok false

/-! ### The common precheck (`60_exceptions.md` R212) -/

/-- What a command asks the precheck to test. -/
structure Checks where
  /-- The buffers it names, A before B, each once. -/
  bufs : List Sel
  /-- Whether their dimensions must be equal. -/
  dims : Bool
  /-- Whether THRESHOLD and ALPHA must lie in their range. -/
  options : Bool
  /-- The buffer PT_P is taken in, if it is used. -/
  pointP : Option Sel
  /-- The buffer PT_Q is taken in, if it is used. -/
  pointQ : Option Sel
deriving DecidableEq, Repr

/-- The set {SEL1, SEL2}, A before B; one member when they are equal (`60_exceptions.md` R212). -/
def bufSet : Sel → Sel → List Sel
  | .a, .a => [.a]
  | .a, .b => [.a, .b]
  | .b, .a => [.a, .b]
  | .b, .b => [.b]

/-- Step 1 for one buffer (`60_exceptions.md` R202). -/
def emptyCheck (s : State) (sel : Sel) : Option CmdError :=
  if (s.desc sel).empty then some .emptyImage else none

/-- Step 2 (`60_exceptions.md` R203). -/
def dimsCheck (s : State) (c : Checks) : Option CmdError :=
  if c.dims && c.bufs.contains .a && c.bufs.contains .b && !sameDims s.descA s.descB
  then some .dimensionsMismatch else none

/-- Step 3 for one buffer (`60_exceptions.md` R204). -/
def modelCheck (s : State) (sel : Sel) : Option CmdError :=
  if 9 < (s.desc sel).model.toNat then some (.unsupportedFormat sel) else none

/-- Step 4 for one buffer: the stride, then the length (`60_exceptions.md` R205). -/
def geometryCheck (s : State) (sel : Sel) : Option CmdError :=
  if (s.desc sel).rowBytes < (s.desc sel).width * (s.desc sel).bpp then some (.badParam (.stride sel))
  else if (s.desc sel).length < (s.desc sel).rowBytes * (s.desc sel).height then some (.badParam (.len sel))
  else none

/-- `0.0 <= v and v <= 1.0`: false on a NaN, true on -0.0 (`60_exceptions.md` R205). -/
def inUnitRange (v : F64) : Bool := fle cZero v && fle v cOne

/-- The THRESHOLD part of step 5. -/
def thresholdCheck (s : State) : Option CmdError :=
  if inUnitRange s.opts.threshold then none else some (.badParam .thresholdRange)

/-- The ALPHA part of step 5, which GRAYBL runs alone. -/
def alphaCheck (s : State) : Option CmdError :=
  if inUnitRange s.opts.alpha then none else some (.badParam .alphaRange)

/-- Step 5 (`60_exceptions.md` R205). -/
def optionsCheck (s : State) (c : Checks) : Option CmdError :=
  if c.options then (thresholdCheck s).or (alphaCheck s) else none

/-- A point against the buffer it is taken in, if it is used. -/
def pointCheck (s : State) (p : PointReg) (bad : BadParam) : Option Sel → Option CmdError
  | none => none
  | some sel => if (s.desc sel).inside p.point then none else some (.badParam bad)

/-- Step 6 (`60_exceptions.md` R205). -/
def pointsCheck (s : State) (c : Checks) : Option CmdError :=
  (pointCheck s s.ptP .pointP c.pointP).or (pointCheck s s.ptQ .pointQ c.pointQ)

/-- Steps 1 and 2, the document's gates (`43_compare.md` R181, R182). -/
def documentGates (s : State) (c : Checks) : Option CmdError :=
  (c.bufs.findSome? (emptyCheck s)).or (dimsCheck s c)

/-- Steps 3 to 6, the hardware's own gates (`43_compare.md` R184, R185). -/
def hardwareGates (s : State) (c : Checks) : Option CmdError :=
  (c.bufs.findSome? (modelCheck s)).or
    ((c.bufs.findSome? (geometryCheck s)).or ((optionsCheck s c).or (pointsCheck s c)))

/-- `precheck(buffers, same_dims, options, points)`: the first test that holds (`60_exceptions.md` R212, R209). -/
def precheck (s : State) (c : Checks) : Option CmdError :=
  (documentGates s c).or (hardwareGates s c)

/-- The precheck of a command on one buffer at PT_P: POS, RDPIX, SAMENB. -/
def oneBufferChecks (sel : Sel) : Checks :=
  { bufs := [sel], dims := false, options := false, pointP := some sel, pointQ := none }

end Sys2Proof.Machine
end

