-- ==== Sys2Proof/Machine/Color.lean ====
section
/-! DEFINITION. The YIQ colour converter: Y, I, Q, the blend over white, the gray blend, and the commands YIQ,
BLENDW and GRAYBL (`40_color.md` R123 to R130). -/

namespace Sys2Proof.Machine

/-- Three f64 colour components, not rounded to integers (`40_color.md` R127). -/
structure Rgb where
  r : F64
  g : F64
  b : F64
deriving DecidableEq, Repr

/-- `Y(r, g, b)` (`40_color.md` R123). -/
def yOf (c : Rgb) : F64 := fadd (fadd (fmul cyR c.r) (fmul cyG c.g)) (fmul cyB c.b)

/-- `I(r, g, b)` (`40_color.md` R124). -/
def iOf (c : Rgb) : F64 := fsub (fsub (fmul ciR c.r) (fmul ciG c.g)) (fmul ciB c.b)

/-- `Q(r, g, b)` (`40_color.md` R125). -/
def qOf (c : Rgb) : F64 := fadd (fsub (fmul cqR c.r) (fmul cqG c.g)) (fmul cqB c.b)

/-- The components of a canonical colour as f64, alpha left out (`40_color.md` R123). -/
def opaqueRgb (c : Color) : Rgb := { r := f64OfByte c.r, g := f64OfByte c.g, b := f64OfByte c.b }

/-- `255 + (c - 255)·a` (`40_color.md` R127, R129). -/
def towardWhite (c a : F64) : F64 := fadd c255 (fmul (fsub c c255) a)

/-- `blend`, the colour composited over white by its own alpha; A itself is unchanged (`40_color.md` R127). -/
def blend (c : Color) : Rgb :=
  { r := towardWhite (f64OfByte c.r) (fdiv (f64OfByte c.a) c255)
    g := towardWhite (f64OfByte c.g) (fdiv (f64OfByte c.a) c255)
    b := towardWhite (f64OfByte c.b) (fdiv (f64OfByte c.a) c255) }

/-- `clamp(v, 0, 255)` (`40_color.md` R129). -/
def clamp255 (v : F64) : F64 :=
  if flt v cZero then cZero else if flt c255 v then c255 else v

/-- The gray level of `grayblend` (`40_color.md` R129). -/
def grayLevel (c : Color) (m : F64) : Byte :=
  if c.a = 0#8 then 255#8 else truncU8 (clamp255 (towardWhite (yOf (opaqueRgb c)) m))

/-- `grayblend((R,G,B,A), m)` (`40_color.md` R129). -/
def grayblend (c : Color) (m : F64) : Color :=
  { r := grayLevel c m, g := grayLevel c m, b := grayLevel c m, a := 255#8 }

/-- Command YIQ (`40_color.md` R126). -/
def execYiq (s : State) : Host.Outcome State Fault Refusal :=
  .next (succeed { s with
    res := { s.res with
      res0 := yOf (opaqueRgb (unpackColor s.colin))
      res1 := iOf (opaqueRgb (unpackColor s.colin))
      res2 := qOf (opaqueRgb (unpackColor s.colin)) } })

/-- Command BLENDW (`40_color.md` R128). -/
def execBlendw (s : State) : Host.Outcome State Fault Refusal :=
  .next (succeed { s with
    res := { s.res with
      res0 := (blend (unpackColor s.colin)).r
      res1 := (blend (unpackColor s.colin)).g
      res2 := (blend (unpackColor s.colin)).b } })

/-- Command GRAYBL (`40_color.md` R130). -/
def execGraybl (s : State) : Host.Outcome State Fault Refusal :=
  behindGates (alphaCheck s) s
    (.ok (succeed { s with
      res := { s.res with resc := packColor (grayblend (unpackColor s.colin) s.opts.alpha) } }))

end Sys2Proof.Machine
end

