-- ==== Sys2Proof/Machine/Delta.lean ====
section
/-! DEFINITION. The colour-delta unit and its command CDELTA (`41_delta.md` R140 to R149). -/

namespace Sys2Proof.Machine

/-- Step 3: the colour over white if its alpha is below 255, as it stands otherwise (`41_delta.md` R144). -/
def overWhite (c : Color) : Rgb := if c.a.toNat < 255 then blend c else opaqueRgb c

/-- Step 4: `dy = yA - yB` (`41_delta.md` R145). -/
def brightnessDelta (p q : Rgb) : F64 := fsub (yOf p) (yOf q)

/-- One weighted square, the square formed first (`41_delta.md` R146). -/
def weighted (w d : F64) : F64 := fmul w (fmul d d)

/-- Steps 5 and 6: the weighted sum, left to right (`41_delta.md` R146). -/
def squaredDelta (p q : Rgb) : F64 :=
  fadd (fadd (weighted wY (brightnessDelta p q)) (weighted wI (fsub (iOf p) (iOf q))))
    (weighted wQ (fsub (qOf p) (qOf q)))

/-- Step 7: the sign bit set when the first is brighter (`41_delta.md` R147). -/
def signedDelta (p q : Rgb) : F64 :=
  if flt (yOf q) (yOf p) then 0x8000000000000000#64 ||| squaredDelta p q else squaredDelta p q

/-- `delta` on two canonical colours: steps 2 to 7 (`41_delta.md` R143 to R147). -/
def colorDelta (ca cb : Color) (onlyY : Bool) : F64 :=
  if ca = cb then cZero
  else if onlyY then brightnessDelta (overWhite ca) (overWhite cb)
  else signedDelta (overWhite ca) (overWhite cb)

/-- `delta(s1, p, s2, q, only_y)` (`41_delta.md` R140, R142). -/
def delta (s : State) (s1 : Sel) (p : Point) (s2 : Sel) (q : Point) (onlyY : Bool) : Except Fault F64 := do
  let ca ← canonPixel s s1 p
  let cb ← canonPixel s s2 q
  .ok (colorDelta ca cb onlyY)

/-- `max_delta(t) = Y_MAX · t²`, the square formed first (`41_delta.md` R148). -/
def maxDeltaOf (t : F64) : F64 := fmul yMax (fmul t t)

/-- The precheck of CDELTA (`41_delta.md` R149). -/
def cdeltaChecks (sel1 sel2 : Sel) : Checks :=
  { bufs := bufSet sel1 sel2, dims := false, options := false, pointP := some sel1, pointQ := some sel2 }

/-- Command CDELTA (`41_delta.md` R149). -/
def execCdelta (onlyY : Bool) (sel1 sel2 : Sel) (s : State) : Host.Outcome State Fault Refusal :=
  behindGates (precheck s (cdeltaChecks sel1 sel2)) s
    (do
      let d ← delta s sel1 s.ptP.point sel2 s.ptQ.point onlyY
      .ok (succeed { s with res := { s.res with res0 := d } }))

end Sys2Proof.Machine
end

