-- ==== Sys2Proof/Machine/Neighborhood.lean ====
section
/-! DEFINITION. The 3×3 neighbourhood classifier: window, bump, scan order, `same_neighbors`, `antialiased`, and the
commands SAMENB and AA (`42_neighborhood.md` R150 to R160). -/

namespace Sys2Proof.Machine

/-- The lower bound of the window on one axis, `px - 1` not formed at 0 (`42_neighborhood.md` R150). -/
def windowLow (v : Nat) : Nat := if v > 0 then v - 1 else 0

/-- The upper bound of the window on one axis (`42_neighborhood.md` R150). -/
def windowHigh (v size : Nat) : Nat := min (v + 1) (size - 1)

/-- The boundary bump: 1 on the border, one for a corner too (`42_neighborhood.md` R151). -/
def bump (d : Desc) (p : Point) : Nat :=
  if p.x = windowLow p.x ∨ p.x = windowHigh p.x d.width ∨ p.y = windowLow p.y ∨ p.y = windowHigh p.y d.height
  then 1 else 0

/-- The integers from low to high, both included, ascending. -/
def intRange (low high : Nat) : List Nat := List.range' low (high + 1 - low)

/-- The window of p, x outer and y inner, both ascending (`42_neighborhood.md` R150, R152). -/
def window (d : Desc) (p : Point) : List Point :=
  (intRange (windowLow p.x) (windowHigh p.x d.width)).flatMap fun x =>
    (intRange (windowLow p.y) (windowHigh p.y d.height)).map fun y => { x := x, y := y }

/-- The neighbours of p in scan order: the window without p (`42_neighborhood.md` R152). -/
def neighbours (d : Desc) (p : Point) : List Point :=
  (window d p).filter (fun q => decide (q ≠ p))

/-- The loop of `same_neighbors` over the neighbours still to visit (`42_neighborhood.md` R153). -/
def sameLoop (s : State) (sel : Sel) (p : Point) (n : Nat) : List Point → Nat → Except Fault Bool
  | [], _ => .ok false
  | q :: rest, count => do
    let other ← rawPixel s sel q
    let own ← rawPixel s sel p
    if other = own then
      if count + 1 > n then .ok true else sameLoop s sel p n rest (count + 1)
    else sameLoop s sel p n rest count

/-- `same_neighbors(s, p, n)` (`42_neighborhood.md` R153). -/
def sameNeighbors (s : State) (sel : Sel) (p : Point) (n : Nat) : Except Fault Bool :=
  sameLoop s sel p n (neighbours (s.desc sel) p) (bump (s.desc sel) p)

/-- What the loop of `antialiased` carries (`42_neighborhood.md` R155). -/
structure Extrema where
  flat : Nat
  min : F64
  max : F64
  argmin : Point
  argmax : Point
deriving DecidableEq, Repr

/-- The loop's start: the flat count at the bump, min and max at +0.0 (`42_neighborhood.md` R155). -/
def extremaStart (d : Desc) (p : Point) : Extrema :=
  { flat := bump d p, min := cZero, max := cZero, argmin := { x := 0, y := 0 }, argmax := { x := 0, y := 0 } }

/-- One neighbour with its brightness difference: none is the early "too flat to be AA"
(`42_neighborhood.md` R156). -/
def extremaStep (e : Extrema) (q : Point) (dy : F64) : Option Extrema :=
  if feq dy cZero then (if e.flat + 1 > 2 then none else some { e with flat := e.flat + 1 })
  else if flt dy e.min then some { e with min := dy, argmin := q }
  else if flt e.max dy then some { e with max := dy, argmax := q }
  else some e

/-- The loop of `antialiased` over the neighbours still to visit; none is its early return
(`42_neighborhood.md` R156). -/
def extremaLoop (s : State) (sel : Sel) (p : Point) : List Point → Extrema → Except Fault (Option Extrema)
  | [], e => .ok (some e)
  | q :: rest, e => do
    let dy ← delta s sel p sel q true
    match extremaStep e q dy with
    | none => .ok none
    | some e' => extremaLoop s sel p rest e'

/-- The fixed threshold of `antialiased` (`42_neighborhood.md` R158). -/
def aaSame : Nat := 3

/-- `same_neighbors` at one extremum in both buffers (`42_neighborhood.md` R158). -/
def sameInBoth (s : State) (sa sb : Sel) (q : Point) : Except Fault Bool := do
  let inA ← sameNeighbors s sa q aaSame
  if inA then sameNeighbors s sb q aaSame else .ok false

/-- Steps 4 and 5 (`42_neighborhood.md` R157, R158). -/
def extremaVerdict (s : State) (sa sb : Sel) (e : Extrema) : Except Fault Bool :=
  if feq e.min cZero || feq e.max cZero then .ok false
  else do
    let low ← sameInBoth s sa sb e.argmin
    if low then .ok true else sameInBoth s sa sb e.argmax

/-- `antialiased(sa, sb, p)` (`42_neighborhood.md` R155 to R158). -/
def antialiased (s : State) (sa sb : Sel) (p : Point) : Except Fault Bool := do
  let r ← extremaLoop s sa p (neighbours (s.desc sa) p) (extremaStart (s.desc sa) p)
  match r with
  | none => .ok false
  | some e => extremaVerdict s sa sb e

/-- SAMENB's own test, made before the precheck (`42_neighborhood.md` R154). -/
def nCheck (n : Nat) : Option CmdError := if n = 0 then some (.badParam .nRange) else none

/-- Command SAMENB (`42_neighborhood.md` R154). -/
def execSamenb (sel1 : Sel) (n : Nat) (s : State) : Host.Outcome State Fault Refusal :=
  behindGates ((nCheck n).or (precheck s (oneBufferChecks sel1))) s
    (do
      let v ← sameNeighbors s sel1 s.ptP.point n
      .ok (succeed { s with res := { s.res with resBool := v } }))

/-- The precheck of AA (`42_neighborhood.md` R160). -/
def aaChecks (sel1 sel2 : Sel) : Checks :=
  { bufs := bufSet sel1 sel2, dims := true, options := false, pointP := some sel1, pointQ := none }

/-- Command AA (`42_neighborhood.md` R160). -/
def execAa (sel1 sel2 : Sel) (s : State) : Host.Outcome State Fault Refusal :=
  behindGates (precheck s (aaChecks sel1 sel2)) s
    (do
      let v ← antialiased s sel1 sel2 s.ptP.point
      .ok (succeed { s with res := { s.res with resBool := v } }))

end Sys2Proof.Machine
end

