-- ==== Sys2Proof/Machine/Compare.lean ====
section
/-! DEFINITION. The per-pixel comparator, the output selector, the commands PIXEL and CMP
(`43_compare.md` R172 to R189). CMP's scan itself is `Scan.lean`. -/

namespace Sys2Proof.Machine

/-- The AA test of the comparator, asked both ways, the second only when the first fails
(`43_compare.md` R176). -/
def aaEither (s : State) (p : Point) : Except Fault Bool := do
  let ab ← antialiased s .a .b p
  if ab then .ok true else antialiased s .b .a p

/-- The class of a pixel whose |delta| exceeds MAXDELTA (`43_compare.md` R176). -/
def overClass (s : State) (p : Point) : Except Fault PixelClass :=
  if s.opts.flags.includeAa then .ok .different
  else do
    let aa ← aaEither s p
    .ok (if aa then .antialiased else .different)

/-- `classify(p)`, given MAXDELTA (`43_compare.md` R176). -/
def classify (s : State) (p : Point) : Except Fault (F64 × PixelClass) := do
  let d ← delta s .a p .b p false
  if flt s.res.maxDelta (fabs d) then do
    let c ← overClass s p
    .ok (d, c)
  else .ok (d, .unchanged)

/-- The `wr` of `select` (`43_compare.md` R175). -/
def writesPixel (f : Flags) : PixelClass → Bool
  | .antialiased => f.outputEn && !f.diffMask
  | .different => f.outputEn
  | .unchanged => f.outputEn && !f.diffMask

/-- The colour of a DIFFERENT pixel (`43_compare.md` R175). -/
def diffColorFor (o : Options) (d : F64) : Color :=
  if o.flags.altValid && flt d cZero then unpackColor o.diffColorAlt else unpackColor o.diffColor

/-- The `col` of `select` (`43_compare.md` R175). -/
def colorFor (s : State) (p : Point) (d : F64) : PixelClass → Except Fault Color
  | .antialiased => .ok (unpackColor s.opts.aaColor)
  | .different => .ok (diffColorFor s.opts d)
  | .unchanged => do
    let c ← canonPixel s .a p
    .ok (grayblend c s.opts.alpha)

/-- What the comparator and the selector say of one pixel. -/
structure Verdict where
  d : F64
  cls : PixelClass
  wr : Bool
  col : Color
deriving DecidableEq, Repr

/-- `classify` and then `select` (`43_compare.md` R175, R176). -/
def judge (s : State) (p : Point) : Except Fault Verdict := do
  let dc ← classify s p
  let col ← colorFor s p dc.1 dc.2
  .ok { d := dc.1, cls := dc.2, wr := writesPixel s.opts.flags dc.2, col := col }

/-- The precheck of PIXEL (`43_compare.md` R177). -/
def pixelChecks : Checks :=
  { bufs := [.a, .b], dims := true, options := true, pointP := some .a, pointQ := none }

/-- The gates of CMP: the precheck with no point (`60_exceptions.md` R212). -/
def cmpChecks : Checks :=
  { bufs := [.a, .b], dims := true, options := true, pointP := none, pointQ := none }

/-- The state with MAXDELTA computed from THRESHOLD (`41_delta.md` R148). -/
def withMaxDelta (s : State) : State :=
  { s with res := { s.res with maxDelta := maxDeltaOf s.opts.threshold } }

/-- What PIXEL writes for a verdict (`43_compare.md` R177). -/
def pixelResult (v : Verdict) (s : State) : State :=
  { s with
    res := { s.res with
      res0 := v.d
      resClass := v.cls
      resWr := v.wr
      resc := if v.wr then packColor v.col else 0#32
      count := if v.cls = .different then 1#32 else 0#32 } }

/-- Command PIXEL (`43_compare.md` R177). -/
def execPixel (s : State) : Host.Outcome State Fault Refusal :=
  behindGates (precheck s pixelChecks) s
    (do
      let v ← judge (withMaxDelta s) s.ptP.point
      .ok (succeed (pixelResult v (withMaxDelta s))))

/-- The bytes of a colour in OUT: R, G, B, A at increasing offsets (`20_memory.md` R52). -/
def colorBytes (c : Color) : List Byte := [c.r, c.g, c.b, c.a]

/-- The OUT offset of pixel (x, y) (`20_memory.md` R52). -/
def outOffset (s : State) (p : Point) : Nat := 4 * (p.y * s.descA.width + p.x)

/-- `OutWrite(x, y, col)` (`20_memory.md` R70). -/
def outWrite (s : State) (p : Point) (c : Color) : State :=
  { s with mem := { s.mem with out := writeBytes s.mem.out (outOffset s p) (colorBytes c) } }

/-- The zero-fill of OUT bytes 0 .. 4·W·H-1, when an output is requested (`20_memory.md` R71). -/
def zeroFill (s : State) : State :=
  if s.opts.flags.outputEn then
    { s with mem := { s.mem with out := fillBytes s.mem.out (outBytes s) (fun _ => 0#8) } }
  else s

/-- Step 4 of CMP: MAXDELTA, the lanes cleared, the zero-fill; the scan is next (`43_compare.md` R186). -/
def startScan (s : State) : State :=
  zeroFill { withMaxDelta s with engine := .scanning, scan := Scan.clear }

/-- The identity fast path's end: COUNT <- 0, OUTVALID <- 0, no error, OUT untouched (`43_compare.md` R183). -/
def identityEnd (s : State) : State :=
  succeed { s with res := { s.res with count := 0#32 }, status := { s.status with outValid := false } }

/-- CMP after the identity gate, which found the arrays different (`43_compare.md` R184 to R186). -/
def cmpPastIdentity (s : State) : State :=
  match hardwareGates s cmpChecks with
  | some e => raiseError e s
  | none => startScan s

/-- Command CMP: the ordered policy up to step 4 (`43_compare.md` R180 to R186). Steps 5 and 6 are the steps of the
lanes and the join (`Scan.lean`, `43_compare.md` R191). -/
def execCmp (s : State) : Host.Outcome State Fault Refusal :=
  behindGates (documentGates s cmpChecks) s
    (do
      let same ← identicalBytes s
      if same then .ok (identityEnd s) else .ok (cmpPastIdentity s))

end Sys2Proof.Machine
end

