-- ==== Sys2Proof/Machine/Fetch.lean ====
section
/-! DEFINITION. The commands that expose the pixel fetch and the gates: POS, RDPIX, DIMEQ, IDENT
(`43_compare.md` R170, R171, R173, R174). -/

namespace Sys2Proof.Machine

/-- Command POS (`43_compare.md` R170). -/
def execPos (sel1 : Sel) (s : State) : Host.Outcome State Fault Refusal :=
  behindGates (precheck s (oneBufferChecks sel1)) s
    (.ok (succeed { s with
      res := { s.res with resp := BitVec.ofNat 40 (pixelOffset (s.desc sel1) s.ptP.point) } }))

/-- Command RDPIX (`43_compare.md` R171). -/
def execRdpix (sel1 : Sel) (s : State) : Host.Outcome State Fault Refusal :=
  behindGates (precheck s (oneBufferChecks sel1)) s
    (do
      let c ← canonPixel s sel1 s.ptP.point
      .ok (succeed { s with res := { s.res with resc := packColor c } }))

/-- Command DIMEQ (`43_compare.md` R173). -/
def execDimeq (s : State) : Host.Outcome State Fault Refusal :=
  .next (succeed { s with res := { s.res with resBool := sameDims s.descA s.descB } })

/-- Command IDENT (`43_compare.md` R174). -/
def execIdent (s : State) : Host.Outcome State Fault Refusal :=
  settle (do
    let same ← identicalBytes s
    .ok (succeed { s with res := { s.res with resBool := same } }))

end Sys2Proof.Machine
end

