-- ==== Sys2Proof/Machine/Dispatch.lean ====
section
/-! DEFINITION. Every command's meaning, one arm per constructor of `Instr` (`30_encoding.md` R92). The state is one in
which the command has been accepted (`60_exceptions.md` R210). -/

namespace Sys2Proof.Machine

def exec (i : Instr) (s : State) : Host.Outcome State Fault Refusal :=
  match i with
  | .cmp => Sys2Proof.Machine.execCmp s
  | .pixel => Sys2Proof.Machine.execPixel s
  | .dimeq => Sys2Proof.Machine.execDimeq s
  | .ident => Sys2Proof.Machine.execIdent s
  | .pos sel1 => Sys2Proof.Machine.execPos sel1 s
  | .rdpix sel1 => Sys2Proof.Machine.execRdpix sel1 s
  | .yiq => Sys2Proof.Machine.execYiq s
  | .blendw => Sys2Proof.Machine.execBlendw s
  | .graybl => Sys2Proof.Machine.execGraybl s
  | .cdelta onlyY sel1 sel2 => Sys2Proof.Machine.execCdelta onlyY sel1 sel2 s
  | .samenb sel1 n => Sys2Proof.Machine.execSamenb sel1 n s
  | .aa sel1 sel2 => Sys2Proof.Machine.execAa sel1 sel2 s

end Sys2Proof.Machine
end

