-- ==== Sys2Proof/Machine/HostPort.lean ====
section
/-! DEFINITION. The host's side: the register window (`10_state.md` R10, R11, R15, R17, `70_reset_and_hazards.md` R241),
the five spaces (`20_memory.md` R54, `70_reset_and_hazards.md` R240), the reset, and the issue of a command. -/

namespace Sys2Proof.Machine

/-! ### Register numbers and access kinds (`10_state.md` R10) -/

/-- The registers by number, 0x00 first. -/
def regList : List Reg :=
  [.id, .cmd, .status, .flags, .threshold, .alpha, .aaColor, .diffColor, .diffColorAlt,
   .aDims, .aLayout, .aLen, .bDims, .bLayout, .bLen, .ptP, .ptQ, .colin,
   .count, .res0, .res1, .res2, .resc, .resb, .resp, .maxDelta, .lanes]

/-- The register of a number, none above 0x1A (`10_state.md` R11). -/
def regOfNumber (n : Nat) : Option Reg := regList[n]?

/-- The column "access" of `10_state.md` R10: whether the register is RO. -/
def isReadOnly : Reg → Bool
  | .id => true
  | .cmd => false
  | .status => true
  | .flags => false
  | .threshold => false
  | .alpha => false
  | .aaColor => false
  | .diffColor => false
  | .diffColorAlt => false
  | .aDims => false
  | .aLayout => false
  | .aLen => false
  | .bDims => false
  | .bLayout => false
  | .bLen => false
  | .ptP => false
  | .ptQ => false
  | .colin => false
  | .count => true
  | .res0 => true
  | .res1 => true
  | .res2 => true
  | .resc => true
  | .resb => true
  | .resp => true
  | .maxDelta => true
  | .lanes => true

/-- The result registers (`10_state.md` R10, R17). -/
def isResult : Reg → Bool
  | .count => true
  | .res0 => true
  | .res1 => true
  | .res2 => true
  | .resc => true
  | .resb => true
  | .resp => true
  | .maxDelta => true
  | _ => false

/-- The identity constant (`10_state.md` R14). -/
def idValue : Word := 0x0000000050444501#64

/-- What a register holds, reserved bits and the WO register CMD reading 0 (`10_state.md` R11 to R35). -/
def regValue (s : State) : Reg → Word
  | .id => idValue
  | .cmd => 0#64
  | .status => packStatus s.busy s.status
  | .flags => packFlags s.opts.flags
  | .threshold => s.opts.threshold
  | .alpha => s.opts.alpha
  | .aaColor => s.opts.aaColor.setWidth 64
  | .diffColor => s.opts.diffColor.setWidth 64
  | .diffColorAlt => s.opts.diffColorAlt.setWidth 64
  | .aDims => packDims s.descA
  | .aLayout => packLayout s.descA
  | .aLen => s.descA.len.setWidth 64
  | .bDims => packDims s.descB
  | .bLayout => packLayout s.descB
  | .bLen => s.descB.len.setWidth 64
  | .ptP => packPoint s.ptP
  | .ptQ => packPoint s.ptQ
  | .colin => s.colin.setWidth 64
  | .count => s.res.count.setWidth 64
  | .res0 => s.res.res0
  | .res1 => s.res.res1
  | .res2 => s.res.res2
  | .resc => s.res.resc.setWidth 64
  | .resb => packResb s.res
  | .resp => s.res.resp.setWidth 64
  | .maxDelta => s.res.maxDelta
  | .lanes => BitVec.ofNat 64 Config.nLanes

/-! ### Register reads (`10_state.md` R11, R17) -/

/-- A read whose data the spec leaves open: the next free value. -/
def readFree (s : State) : State :=
  { s with hostData := Config.freeValue s.freeCtr, freeCtr := s.freeCtr + 1 }

/-- A host read of a register: a result register while BUSY = 1 returns an unspecified value
(`10_state.md` R17), a number above 0x1A returns 0 (`10_state.md` R11). -/
def readReg (n : Nat) (s : State) : State :=
  match regOfNumber n with
  | none => { s with hostData := 0#64 }
  | some r => if s.busy && isResult r then readFree s else { s with hostData := regValue s r }

/-! ### Register writes (`10_state.md` R11, `70_reset_and_hazards.md` R241) -/

/-- A write to an RW register while BUSY = 0: the bits of the defined fields are stored (`10_state.md` R11). -/
def storeReg (r : Reg) (v : Word) (s : State) : State :=
  match r with
  | .flags => { s with opts := { s.opts with flags := unpackFlags v } }
  | .threshold => { s with opts := { s.opts with threshold := v } }
  | .alpha => { s with opts := { s.opts with alpha := v } }
  | .aaColor => { s with opts := { s.opts with aaColor := v.setWidth 32 } }
  | .diffColor => { s with opts := { s.opts with diffColor := v.setWidth 32 } }
  | .diffColorAlt => { s with opts := { s.opts with diffColorAlt := v.setWidth 32 } }
  | .aDims => { s with descA := writeDims v s.descA }
  | .aLayout => { s with descA := writeLayout v s.descA }
  | .aLen => { s with descA := writeLen v s.descA }
  | .bDims => { s with descB := writeDims v s.descB }
  | .bLayout => { s with descB := writeLayout v s.descB }
  | .bLen => { s with descB := writeLen v s.descB }
  | .ptP => { s with ptP := unpackPoint v }
  | .ptQ => { s with ptQ := unpackPoint v }
  | .colin => { s with colin := v.setWidth 32 }
  | _ => s

/-- A write dropped because BUSY = 1: DROPPED <- 1 (`70_reset_and_hazards.md` R241). -/
def dropWrite (s : State) : State := { s with status := { s.status with dropped := true } }

/-- The decoding of the latched word (`60_exceptions.md` R210, `30_encoding.md` R98). -/
def latched (w : CmdWord) : Except DecodeError Instr := decodeWord w

/-- The issue of a command word while BUSY = 0: it is accepted (`60_exceptions.md` R210), and an illegal word completes
at once with ILLEGAL_COMMAND and no other effect (`30_encoding.md` R94), so that BUSY never reads 1 for it. -/
def issue (w : CmdWord) (s : State) : State :=
  match latched w with
  | .ok _ => accept w s
  | .error _ => raiseError .illegalCommand (accept w s)

/-- A write to CMD or to an RW register: dropped while BUSY = 1, the issue of a command for CMD, a store otherwise
(`10_state.md` R11, R15). -/
def writeWritable (r : Reg) (v : Word) (s : State) : State :=
  if s.busy then dropWrite s
  else if r = .cmd then issue (v.setWidth 32) s
  else storeReg r v s

/-- A host write of a register: an RO register or a number above 0x1A is left as it is (`10_state.md` R11). -/
def writeReg (n : Nat) (v : Word) (s : State) : State :=
  match regOfNumber n with
  | none => s
  | some r => if isReadOnly r then s else writeWritable r v s

/-- One 64-bit access at byte address 8·n (`10_state.md` R10). -/
def wholeAccess (addr nbytes : Nat) : Bool := decide (nbytes = 8) && decide (addr % 8 = 0)

/-- The host's write of the register window. -/
def hostRegWrite (addr nbytes : Nat) (v : Word) (s : State) : Host.Outcome State Fault Refusal :=
  if wholeAccess addr nbytes then .next (writeReg (addr / 8) v s) else .refused .partialRegisterAccess

/-- The host's read of the register window. -/
def hostRegRead (addr nbytes : Nat) (s : State) : Host.Outcome State Fault Refusal :=
  if wholeAccess addr nbytes then .next (readReg (addr / 8) s) else .refused .partialRegisterAccess

/-! ### The five spaces (`20_memory.md` R50, R54, `70_reset_and_hazards.md` R240) -/

/-- A forbidden access, made while BUSY = 1: the running command is marked and nothing else changes
(`70_reset_and_hazards.md` R240: the outcome stays inside the command). Log entry 6. -/
def touch (s : State) : State := { s with touched := true }

/-- The host's write of one byte (`20_memory.md` R54). -/
def hostStore (sp : ByteSpace) (off : Nat) (v : Byte) (s : State) : Host.Outcome State Fault Refusal :=
  if off < spaceSize sp then
    .next (if s.busy then touch s
      else { s with mem := setSpace s.mem sp (cellPut (spaceOf s.mem sp) off v) })
  else .fault .outsideSpace

/-- The host's read of one byte: unspecified while BUSY = 1 (`70_reset_and_hazards.md` R240), refused when nothing has
written the byte (`93_implementation_defined.md` I9). -/
def hostLoad (sp : ByteSpace) (off : Nat) (s : State) : Host.Outcome State Fault Refusal :=
  if off < spaceSize sp then
    if s.busy then .next (readFree (touch s))
    else match readByte s.mem sp off with
      | some v => .next { s with hostData := v.setWidth 64 }
      | none => .refused .hostReadUnwritten
  else .fault .outsideSpace

/-- The host's write of one palette entry (`20_memory.md` R53, R54). -/
def hostPalStore (sel : Sel) (i : Nat) (v : ColorWord) (s : State) : Host.Outcome State Fault Refusal :=
  if i < palSize then
    .next (if s.busy then touch s
      else { s with mem := setPal s.mem sel (cellPut (palOf s.mem sel) i v) })
  else .fault .outsideSpace

/-- The host's read of one palette entry (`20_memory.md` R54). -/
def hostPalLoad (sel : Sel) (i : Nat) (s : State) : Host.Outcome State Fault Refusal :=
  if i < palSize then
    if s.busy then .next (readFree (touch s))
    else match cellGet (palOf s.mem sel) i with
      | some v => .next { s with hostData := v.setWidth 64 }
      | none => .refused .hostReadUnwritten
  else .fault .outsideSpace

/-! ### Reset and the turn -/

/-- The hardware reset: every register and the scan position as `10_state.md` R41 says, a running command abandoned,
the spaces without a value (`70_reset_and_hazards.md` R231 to R233). The outside, that is the events to come, the
host's data and the count of free values, is no state of the PDE and stays. -/
def hardwareReset (s : State) : State :=
  { State.reset with inbox := s.inbox, hostData := s.hostData, freeCtr := s.freeCtr }

/-- Who moves next, and in which state. -/
inductive Turn where
  /-- The PDE moves; in a scan, the named lane if one is named. -/
  | pde (pick : Option Nat) (s : State)
  /-- The outside moves. -/
  | outside (e : Event) (s : State)
deriving DecidableEq, Repr

/-- The turn: the soonest event, taken from the inbox; with no event to come the PDE moves. A WAIT stays while
BUSY = 1 and lets the PDE move (`30_encoding.md` R97). -/
def turn (s : State) : Turn :=
  match s.inbox with
  | [] => .pde none s
  | .wait :: rest => if s.busy then .pde none s else .outside .wait { s with inbox := rest }
  | .engine i :: rest => .pde (some i) { s with inbox := rest }
  | e :: rest => .outside e { s with inbox := rest }

/-- The register number of STATUS (`10_state.md` R10). -/
def statusNumber : Nat := 2

/-- What one outside event does. -/
def outsideStep (e : Event) (s : State) : Host.Outcome State Fault Refusal :=
  match e with
  | .regWrite addr nbytes v => hostRegWrite addr nbytes v s
  | .regRead addr nbytes => hostRegRead addr nbytes s
  | .store sp off v => hostStore sp off v s
  | .load sp off => hostLoad sp off s
  | .palStore sel i v => hostPalStore sel i v s
  | .palLoad sel i => hostPalLoad sel i s
  | .wait => .next (readReg statusNumber s)
  | .engine _ => .next s
  | .reset => .next (hardwareReset s)

end Sys2Proof.Machine
end

