-- ==== Sys2Proof/Machine/Scan.lean ====
section
/-! DEFINITION. The parallel row-scan iterator: the four steps of `43_compare.md` R191 and whose turn it is. -/

namespace Sys2Proof.Machine

/-- The state with one lane replaced. -/
def setLane (s : State) (i : Nat) (l : Lane) : State :=
  { s with scan := { s.scan with lanes := lanePut s.scan.lanes i l } }

/-- LANE[i] of the scan position. -/
def State.lane (s : State) (i : Nat) : Lane := laneGet s.scan.lanes i

/-- DISPATCH(i) is enabled (`43_compare.md` R191). -/
def canDispatch (s : State) (i : Nat) : Bool :=
  decide (s.scan.rowNext < s.descA.height) && !(s.lane i).active

/-- DISPATCH(i): the lane takes the next row (`43_compare.md` R191). -/
def dispatch (s : State) (i : Nat) : State :=
  setLane { s with scan := { s.scan with rowNext := s.scan.rowNext + 1 } } i
    { s.lane i with active := true, y := s.scan.rowNext, x := 0 }

/-- PIXELSTEP(i) is enabled (`43_compare.md` R191). -/
def canPixelStep (s : State) (i : Nat) : Bool :=
  (s.lane i).active && decide ((s.lane i).x < s.descA.width)

/-- The point lane i is at. -/
def lanePoint (l : Lane) : Point := { x := l.x, y := l.y }

/-- The lane after a pixel of the given class (`43_compare.md` R188, R191). -/
def laneAfter (l : Lane) (c : PixelClass) : Lane :=
  { l with x := l.x + 1, tally := if c = .different then l.tally + 1 else l.tally }

/-- The state after lane i has its verdict on its pixel (`43_compare.md` R187, R191). -/
def applyVerdict (s : State) (i : Nat) (v : Verdict) : State :=
  setLane (if v.wr then outWrite s (lanePoint (s.lane i)) v.col else s) i (laneAfter (s.lane i) v.cls)

/-- PIXELSTEP(i) (`43_compare.md` R191). -/
def pixelStep (s : State) (i : Nat) : Except Fault State := do
  let v ← judge s (lanePoint (s.lane i))
  .ok (applyVerdict s i v)

/-- RETIRE(i) is enabled (`43_compare.md` R191). The lane's X never passes W. -/
def canRetire (s : State) (i : Nat) : Bool :=
  (s.lane i).active && !decide ((s.lane i).x < s.descA.width)

/-- RETIRE(i) (`43_compare.md` R191). -/
def retire (s : State) (i : Nat) : State :=
  setLane s i { s.lane i with active := false }

/-- JOIN is enabled: every row is handed out and no lane is active (`43_compare.md` R191). -/
def canJoin (s : State) : Bool :=
  !decide (s.scan.rowNext < s.descA.height) && !s.scan.lanes.any (fun e => e.2.active)

/-- The sum of the tallies (`43_compare.md` R189). -/
def tallySum (t : LaneTable) : Nat := (t.map (fun e => e.2.tally)).sum

/-- JOIN: COUNT <- the sum of the tallies, OUTVALID <- OUTPUT_EN, completion (`43_compare.md` R189). -/
def join (s : State) : State :=
  succeed { s with
    res := { s.res with count := BitVec.ofNat 32 (tallySum s.scan.lanes) }
    status := { s.status with outValid := s.opts.flags.outputEn } }

/-- Lane i has a step to take. -/
def laneEnabled (s : State) (i : Nat) : Bool := (s.lane i).active || canDispatch s i

/-- The one step of lane i that is enabled, none if there is none (`43_compare.md` R191). -/
def laneMove (s : State) (i : Nat) : Except Fault State :=
  if canDispatch s i then .ok (dispatch s i)
  else if canPixelStep s i then pixelStep s i
  else if canRetire s i then .ok (retire s i)
  else .ok s

/-- The first active lane. -/
def firstActive (t : LaneTable) : Option Nat := (t.find? (fun e => e.2.active)).map (fun e => e.1)

/-- A step of the scan that no event chose: the first active lane, else a row for lane 0, else the join. It is one
of the enabled steps, so the scan always goes on (`70_reset_and_hazards.md` R248). -/
def defaultScanStep (s : State) : Except Fault State :=
  match firstActive s.scan.lanes with
  | some i => laneMove s i
  | none => if canDispatch s 0 then .ok (dispatch s 0) else .ok (join s)

/-- A step of the scan that an event chose: lane i's if it is a lane and has one, the join if that is enabled, else
nothing happens. Every interleaving of `43_compare.md` R191 is such a choice of lanes. -/
def chosenScanStep (s : State) (i : Nat) : Except Fault State :=
  if isLane i && laneEnabled s i then laneMove s i
  else if canJoin s then .ok (join s)
  else .ok s

/-- One step of the scan. -/
def scanStep (pick : Option Nat) (s : State) : Except Fault State :=
  match pick with
  | none => defaultScanStep s
  | some i => chosenScanStep s i

end Sys2Proof.Machine
end

