-- ==== Sys2Proof/Machine/Step.lean ====
section
/-! DEFINITION. One step of the machine, and where the host's question about one command word puts it. -/

namespace Sys2Proof.Machine

/-- The command the sequencer has latched is carried out. The host's write never leaves an illegal word latched (`issue`);
where `State.withFetchWord` has put one, it completes with ILLEGAL_COMMAND (`60_exceptions.md` R206). Log entry 7. -/
def runLatched (w : CmdWord) (s : State) : Host.Outcome State Fault Refusal :=
  match latched w with
  | .ok i => exec i s
  | .error _ => .next (raiseError .illegalCommand s)

/-- One step of the PDE itself. With BUSY = 0 it does nothing (`60_exceptions.md` R221). -/
def pdeStep (pick : Option Nat) (s : State) : Host.Outcome State Fault Refusal :=
  match s.engine with
  | .idle => .next s
  | .accepted w => runLatched w s
  | .scanning => settle (scanStep pick s)

/-- One step of the machine: the PDE's or the outside's. -/
def step (s : State) : Host.Outcome State Fault Refusal :=
  match turn s with
  | .pde pick t => pdeStep pick t
  | .outside e t => outsideStep e t

/-- The state whose very next step runs the command word w: the word is latched as an acceptance latches it, and no
event stands before it. A command is one 32-bit word (`30_encoding.md` R95), the bits above `nbits` are 0. Log entry 7. -/
def State.withFetchWord (s : State) (nbits w : Nat) : State :=
  { s with engine := .accepted (BitVec.ofNat 32 (w % 2 ^ nbits)), inbox := [] }

end Sys2Proof.Machine
end

