-- ==== Sys2Proof/Safety.lean ====
section
/-! DEFINITION. The terms the statements about the machine are made of: what stays the same, which registers a command
writes, the state invariant, the closed form of a comparison, and the order of the checks as the spec lists it. -/

namespace Sys2Proof.Machine

/-! ### Frames -/

/-- Every option and operand register is the same (`10_state.md` R10: "no command writes them"). -/
def sameOperands (s t : State) : Prop :=
  t.opts = s.opts ∧ t.descA = s.descA ∧ t.descB = s.descB ∧ t.ptP = s.ptP ∧ t.ptQ = s.ptQ ∧ t.colin = s.colin

/-- Every byte and every palette entry reads the same. -/
def sameCells (s t : State) : Prop :=
  (∀ sp off, readByte t.mem sp off = readByte s.mem sp off) ∧
  (∀ sel i, cellGet (palOf t.mem sel) i = cellGet (palOf s.mem sel) i)

/-- Every image byte and every palette entry reads the same; OUT may differ. -/
def sameInputCells (s t : State) : Prop :=
  (∀ sel off, readByte t.mem (imgOf sel) off = readByte s.mem (imgOf sel) off) ∧
  (∀ sel i, cellGet (palOf t.mem sel) i = cellGet (palOf s.mem sel) i)

/-- What is outside the PDE is the same: the events to come, what the host last read, the count of free values. -/
def sameOutside (s t : State) : Prop :=
  t.inbox = s.inbox ∧ t.hostData = s.hostData ∧ t.freeCtr = s.freeCtr

/-- The result registers a command writes (`30_encoding.md` R93, column "writes"). -/
def writesReg : Instr → Reg → Bool
  | .cmp, r => r = .count || r = .maxDelta
  | .pixel, r => r = .count || r = .res0 || r = .resc || r = .resb || r = .maxDelta
  | .dimeq, r => r = .resb
  | .ident, r => r = .resb
  | .pos _, r => r = .resp
  | .rdpix _, r => r = .resc
  | .yiq, r => r = .res0 || r = .res1 || r = .res2
  | .blendw, r => r = .res0 || r = .res1 || r = .res2
  | .graybl, r => r = .resc
  | .cdelta _ _ _, r => r = .res0
  | .samenb _ _, r => r = .resb
  | .aa _ _, r => r = .resb

/-- A command has ended: BUSY = 0, DONE = 1, ERR as given (`60_exceptions.md` R211, R213). -/
def ended (t : State) (e : Option CmdError) : Prop :=
  t.busy = false ∧ t.status.done = true ∧ t.status.err = e

/-- A command has ended with an error and left everything but STATUS as it was (`60_exceptions.md` R200, R211). -/
def refusedWith (s t : State) (e : CmdError) : Prop :=
  ended t (some e) ∧ t.status.outValid = s.status.outValid ∧ t.status.dropped = s.status.dropped ∧
  t.res = s.res ∧ t.scan = s.scan ∧ t.mem = s.mem ∧ sameOperands s t ∧ sameOutside s t

/-! ### Register numbers (`10_state.md` R10) -/

/-- Register n is CMD or an RW register. -/
def writableNumber (n : Nat) : Bool := decide (n = 1) || (decide (3 ≤ n) && decide (n ≤ 17))

/-- Register n is a result register. -/
def resultNumber (n : Nat) : Bool := decide (18 ≤ n) && decide (n ≤ 25)

/-- The bits of the defined, stored fields of the RW register n (`10_state.md` R18 to R28). -/
def storedMask (n : Nat) : Word :=
  match n with
  | 3 => 0xF#64
  | 4 => 0xFFFFFFFFFFFFFFFF#64
  | 5 => 0xFFFFFFFFFFFFFFFF#64
  | 10 => 0xF00FFFFFF#64
  | 11 => 0xFFFFFFFFFF#64
  | 13 => 0xF00FFFFFF#64
  | 14 => 0xFFFFFFFFFF#64
  | _ => 0xFFFFFFFF#64

/-- The derived bits a read of register n adds after a write of v: BPP in 43:40 of the LAYOUT registers
(`10_state.md` R25). -/
def derivedBits (n : Nat) (v : Word) : Word :=
  if n = 10 ∨ n = 13 then BitVec.ofNat 64 (bytesPerPixel (v.extractLsb' 32 4)) <<< 40 else 0#64

/-- ERR and ERRINFO of every way a command can end, as the tables list them (`60_exceptions.md` R201, R204, R205). -/
def errorTable : List (Option CmdError × BitVec 3 × BitVec 4) :=
  [(none, 0, 0), (some .emptyImage, 1, 0), (some .dimensionsMismatch, 2, 0),
   (some (.unsupportedFormat .a), 3, 0), (some (.unsupportedFormat .b), 3, 8),
   (some (.badParam (.stride .a)), 4, 1), (some (.badParam (.stride .b)), 4, 9),
   (some (.badParam (.len .a)), 4, 2), (some (.badParam (.len .b)), 4, 10),
   (some (.badParam .thresholdRange), 4, 3), (some (.badParam .alphaRange), 4, 4),
   (some (.badParam .pointP), 4, 5), (some (.badParam .pointQ), 4, 6), (some (.badParam .nRange), 4, 7),
   (some .illegalCommand, 5, 0)]

/-- RESB.CLASS of the three classes (`43_compare.md` R172). -/
def classTable : List (PixelClass × BitVec 2) := [(.unchanged, 0), (.antialiased, 1), (.different, 2)]

/-- B of the model codes 0 to 9 (`20_memory.md` R61). -/
def bppTable : List Nat := [1, 2, 1, 2, 4, 4, 8, 8, 4, 1]

/-- The offsets, from the pixel's own, of the bytes the canonical read of a model code needs, in the order it reads them
(`20_memory.md` R64 to R69; that it needs no other is log entry 10). -/
def neededBytes (model : Nat) : List Nat :=
  if model ∈ [0, 1, 2, 3, 9] then [0]
  else if model ∈ [4, 5, 8] then [0, 1, 2, 3]
  else if model ∈ [6, 7] then [0, 2, 4, 6]
  else []

/-! ### The checks in their order (`60_exceptions.md` R212) -/

/-- The error of the first condition that holds. -/
def firstThat : List (Bool × CmdError) → Option CmdError
  | [] => none
  | (cond, e) :: rest => if cond then some e else firstThat rest

/-- The point x, y of a point register is outside the buffer. -/
def outsideBuffer (d : Desc) (p : PointReg) : Bool :=
  decide (d.w.toNat ≤ p.x.toNat) || decide (d.h.toNat ≤ p.y.toNat)

/-- The six steps of the precheck, every condition with its error, in order. -/
def precheckList (s : State) (c : Checks) : List (Bool × CmdError) :=
  c.bufs.map (fun buf => (decide ((s.desc buf).w = 0#16) || decide ((s.desc buf).h = 0#16), CmdError.emptyImage)) ++
  [(c.dims && decide (Sel.a ∈ c.bufs) && decide (Sel.b ∈ c.bufs) &&
      (decide (s.descA.w ≠ s.descB.w) || decide (s.descA.h ≠ s.descB.h)), CmdError.dimensionsMismatch)] ++
  c.bufs.map (fun buf => (decide (9 < (s.desc buf).model.toNat), CmdError.unsupportedFormat buf)) ++
  c.bufs.flatMap (fun buf =>
    [(decide ((s.desc buf).stride.toNat < (s.desc buf).w.toNat * bytesPerPixel (s.desc buf).model),
        CmdError.badParam (.stride buf)),
     (decide ((s.desc buf).len.toNat < (s.desc buf).stride.toNat * (s.desc buf).h.toNat),
        CmdError.badParam (.len buf))]) ++
  [(c.options && !(fle cZero s.opts.threshold && fle s.opts.threshold cOne), CmdError.badParam .thresholdRange),
   (c.options && !(fle cZero s.opts.alpha && fle s.opts.alpha cOne), CmdError.badParam .alphaRange)] ++
  (c.pointP.toList.map fun buf => (outsideBuffer (s.desc buf) s.ptP, CmdError.badParam .pointP)) ++
  (c.pointQ.toList.map fun buf => (outsideBuffer (s.desc buf) s.ptQ, CmdError.badParam .pointQ))

/-! ### The state invariant -/

/-- Every address space is in its canonical form. -/
def memOk (s : State) : Prop :=
  (∀ sp, Memory.wf (spaceSize sp) (spaceOf s.mem sp) = true) ∧
  (∀ sel, Memory.wf palSize (palOf s.mem sel) = true)

/-- The handshake: BUSY and DONE are never both 1, and a running command has no error and no output vouched for
(`10_state.md` R16, `60_exceptions.md` R210); only a running command can have been touched. -/
def handshakeOk (s : State) : Prop :=
  (s.busy = true → s.status.done = false ∧ s.status.err = none ∧ s.status.outValid = false) ∧
  (s.touched = true → s.busy = true)

/-- The scan position of a running CMP: ROWNEXT at most H, an active lane in a row that has been handed out and at a
column 0..W, no row with two lanes (`10_state.md` R36, `20_memory.md` R73 (3)). -/
def scanLegal (s : State) : Prop :=
  s.scan.rowNext ≤ s.descA.height ∧
  (∀ i, (s.lane i).active = true → (s.lane i).y < s.scan.rowNext ∧ (s.lane i).x ≤ s.descA.width) ∧
  (∀ i j, (s.lane i).active = true → (s.lane j).active = true → (s.lane i).y = (s.lane j).y → i = j)

/-- A word that waits for its own rule is the word of a command: an illegal one has completed at its issue
(`30_encoding.md` R94). -/
def latchedLegal (s : State) : Prop :=
  ∀ w, s.engine = .accepted w → ∃ i, decodeWord w = .ok i

/-- The invariant that every step keeps. -/
def Inv (s : State) : Prop :=
  memOk s ∧ handshakeOk s ∧ latchedLegal s ∧ LaneTable.wf s.scan.lanes = true ∧ (s.engine = .scanning → scanLegal s)

/-! ### The result of a comparison in closed form (`43_compare.md` R190) -/

/-- Every byte and entry the comparator needs for the pixels of the image has been written. -/
def judgeable (s : State) : Prop :=
  ∀ p, s.descA.inside p = true → ∃ v, judge s p = .ok v

/-- The pixels of buffer A's rectangle, row by row. -/
def imagePoints (s : State) : List Point :=
  (List.range s.descA.height).flatMap fun y => (List.range s.descA.width).map fun x => { x := x, y := y }

/-- The pixel is of class DIFFERENT. -/
def isDifferent (s : State) (p : Point) : Bool :=
  match judge s p with
  | .ok v => decide (v.cls = .different)
  | .error _ => false

/-- The number of DIFFERENT pixels (`43_compare.md` R188). -/
def differentCount (s : State) : Nat := (imagePoints s).countP (isDifferent s)

/-- The pixel that OUT byte k belongs to, and the byte of its colour (`20_memory.md` R52). -/
def outPixel (s : State) (k : Nat) : Point := { x := k / 4 % s.descA.width, y := k / 4 / s.descA.width }

/-- What OUT byte k holds after the comparison whose scan starts in s: with an output requested, `col` of its pixel if the
pixel is written and 0 otherwise; a byte outside the image, and every byte when no output is requested, as it was
(`43_compare.md` R190). -/
def renderedByte (s : State) (k : Nat) : Option Byte :=
  if s.opts.flags.outputEn = true ∧ k < outBytes s then
    match judge s (outPixel s k) with
    | .ok v => if v.wr then (colorBytes v.col)[k % 4]? else some 0#8
    | .error _ => none
  else readByte s.mem .out k

/-- Only choices of a lane are to come: no host action falls into the command. -/
def onlyLaneChoices (es : List Event) : Prop := ∀ e ∈ es, ∃ i, e = .engine i

/-- k steps of the machine. -/
def runSteps (k : Nat) (s : State) : Host.Outcome State Fault Refusal := Host.Core.run Sys2Proof.core k s

/-! ### A neighbourhood with its extrema (`42_neighborhood.md` R156) -/

/-- q is the first-visited neighbour with the smallest difference: every one before it has a larger difference, none after
it a smaller one. -/
def firstSmallest (dy : Point → F64) (qs : List Point) (q : Point) : Prop :=
  ∃ before after, qs = before ++ q :: after ∧
    (∀ r ∈ before, flt (dy q) (dy r) = true) ∧ (∀ r ∈ after, flt (dy r) (dy q) = false)

/-- q is the first-visited neighbour with the largest difference. -/
def firstLargest (dy : Point → F64) (qs : List Point) (q : Point) : Prop :=
  ∃ before after, qs = before ++ q :: after ∧
    (∀ r ∈ before, flt (dy r) (dy q) = true) ∧ (∀ r ∈ after, flt (dy q) (dy r) = false)

/-! ### Two machines side by side -/

/-- m is u but for COUNT, MAXDELTA, the OUT bytes below n and the count of free values. -/
def sameButOutput (n : Nat) (u m : State) : Prop :=
  sameOperands u m ∧ sameInputCells u m ∧ m.status = u.status ∧ m.engine = u.engine ∧ m.scan = u.scan ∧
  m.res = { u.res with count := m.res.count, maxDelta := m.res.maxDelta } ∧
  (∀ k, n ≤ k → readByte m.mem .out k = readByte u.mem .out k) ∧
  m.touched = u.touched ∧ m.inbox = u.inbox ∧ m.hostData = u.hostData

/-! ### Distances, for the rounding -/

/-- How far apart two naturals are. -/
def natDist (m n : Nat) : Nat := (m - n) + (n - m)

/-- A value that is neither a NaN nor an infinity. -/
def isFinite (x : F64) : Prop := fIsNaN x = false ∧ fIsInf x = false

/-- r is the exact value num/den (in units of 2^-1074) rounded to nearest, ties to even: no finite f64 is nearer, and if
one of another value is as near, the last bit of r is 0 (`40_color.md` R121 (a)). -/
def isRounded (r : F64) (num : Int) (den : Nat) : Prop :=
  ∀ x, isFinite x →
    (num - fVal r * (den : Int)).natAbs ≤ (num - fVal x * (den : Int)).natAbs ∧
    ((num - fVal r * (den : Int)).natAbs = (num - fVal x * (den : Int)).natAbs → fVal x ≠ fVal r → r.getLsbD 0 = false)

end Sys2Proof.Machine
end

