-- ==== Sys2Proof/Certificates/Slice0/Obligations.lean ====
section
/-! DEFINITION. The statements for the provers. Each docstring names the rule of the spec it formalises; a statement
that rests on a choice of the model says so and names its log entry. -/

open Sys2Proof Sys2Proof.Machine

/-! ### Encoding -/

/-- Every word has one meaning: a word decodes to an instruction exactly when the instruction is well-formed and
assembles to that word (`30_encoding.md` R91, R97, R98). -/
def Obligations.DecodeInvertsEncode : Prop :=
  ∀ (w : CmdWord) (i : Instr), decodeWord w = .ok i ↔ (i.wellFormed = true ∧ encode i = w)

/-- A word is illegal exactly when its opcode is not assigned, a reserved bit is set, or a field is set that the
command's row does not mark "used" (`30_encoding.md` R91, R94). -/
def Obligations.IllegalWordsByField : Prop :=
  ∀ w : CmdWord, (∃ e, decodeWord w = .error e) ↔
    (opOf w = 0#8 ∨ 0x0D#8 ≤ opOf w ∨ w.getLsbD 11 = true ∨ w.extractLsb' 16 16 ≠ 0#16 ∨
      (w.getLsbD 8 = true ∧ opOf w ≠ 0x0A#8) ∨
      (w.getLsbD 9 = true ∧ opOf w ∉ [0x05#8, 0x06#8, 0x0A#8, 0x0B#8, 0x0C#8]) ∨
      (w.getLsbD 10 = true ∧ opOf w ∉ [0x0A#8, 0x0C#8]) ∨
      (w.extractLsb' 12 4 ≠ 0#4 ∧ opOf w ≠ 0x0B#8))

/-- At most one row of the table matches a word (`30_encoding.md` R91). -/
def Obligations.AtMostOneRowMatches : Prop :=
  ∀ (w : CmdWord) (r r' : Row), rowMatches w r = true → rowMatches w r' = true → r = r'

/-- Words written out from the tables of `30_encoding.md` R91, R97 and the vectors of `95_test_vectors.md` section 8. -/
def Obligations.KnownWordsDecode : Prop :=
  decodeWord 0x00000001#32 = .ok .cmp ∧ decodeWord 0x00000002#32 = .ok .pixel ∧
  decodeWord 0x00000205#32 = .ok (.pos .b) ∧ decodeWord 0x00000007#32 = .ok .yiq ∧
  decodeWord 0x0000030A#32 = .ok (.cdelta true .b .a) ∧ decodeWord 0x0000F20B#32 = .ok (.samenb .b 15) ∧
  decodeWord 0x0000040C#32 = .ok (.aa .a .b) ∧ decodeWord 0x00000801#32 = .error .reservedBits ∧
  decodeWord 0x0000010C#32 = .error .unusedField ∧ decodeWord 0x0000000D#32 = .error .unassignedOpcode

/-! ### Steps and the handshake -/

/-- A step carries out the latched command: with the word w of instruction i latched, the step is exec of i, in the same
state when no event is to come or the host waits, and with the event consumed when the PDE is let move
(`60_exceptions.md` R210, `30_encoding.md` R98; the events are the model's, log entry 5, and so is the cut between
acceptance and the command's own rule, log entry 11). -/
def Obligations.StepRunsTheLatchedCommand : Prop :=
  ∀ (s : State) (w : CmdWord) (i : Instr), s.engine = .accepted w → decodeWord w = .ok i →
    (s.inbox = [] → step s = exec i s) ∧
    (∀ rest, s.inbox = .wait :: rest → step s = exec i s) ∧
    (∀ k rest, s.inbox = .engine k :: rest → step s = exec i { s with inbox := rest })

/-- A word that is no command, written to CMD with BUSY = 0, completes at once with ERR = 5: results, scan position and the
rest of STATUS are cleared as by every acceptance, BUSY is 0 and DONE is 1 in the very next state, and nothing else
changes (`30_encoding.md` R94, `60_exceptions.md` R206, R210, R211). The second clause is the model's own: where
`State.withFetchWord` has latched such a word (log entry 7; no host write does), the step completes it the same way and
changes nothing but STATUS. -/
def Obligations.IllegalWordCompletesWithItsError : Prop :=
  (∀ (s : State) (v : Word) (e : DecodeError) (rest : List Event), s.busy = false →
    decodeWord (v.extractLsb' 0 32) = .error e → s.inbox = .regWrite 8 8 v :: rest →
    step s = .next { s with
      inbox := rest, engine := .idle, res := Results.clear, scan := Scan.clear, touched := false,
      status := { done := true, outValid := false, dropped := false, err := some .illegalCommand } }) ∧
  (∀ (s : State) (w : CmdWord) (e : DecodeError), s.engine = .accepted w → decodeWord w = .error e →
    s.inbox = [] → s.touched = false →
    ∃ t, step s = .next t ∧ refusedWith s t .illegalCommand ∧
      errCode t.status.err = 5#3 ∧ errInfo t.status.err = 0#4)

/-- A write to CMD with BUSY = 0 issues the word in bits 31:0: DONE, ERR, ERRINFO, OUTVALID, DROPPED, every result
register, the scan position and every lane <- 0, and nothing else changes (`60_exceptions.md` R210, `10_state.md` R15).
The word of a command is latched and BUSY <- 1; an illegal word completes at once, STATUS 0x052 (`30_encoding.md` R94).
That a legal command's own rule is a later step, so that BUSY reads 1 in between, is the model's choice, log entry 11. -/
def Obligations.CmdWriteAccepts : Prop :=
  ∀ (s : State) (v : Word) (rest : List Event), s.busy = false → s.inbox = .regWrite 8 8 v :: rest →
    ∃ t, step s = .next t ∧
      (∀ i, decodeWord (v.extractLsb' 0 32) = .ok i →
        t.engine = .accepted (v.extractLsb' 0 32) ∧ regValue t .status = 1#64) ∧
      (∀ e, decodeWord (v.extractLsb' 0 32) = .error e → t.engine = .idle ∧ regValue t .status = 0x052#64) ∧
      (∀ n, resultNumber n = true → ∃ r, regOfNumber n = some r ∧ regValue t r = 0#64) ∧
      t.scan.rowNext = 0 ∧ (∀ i, t.lane i = Lane.clear) ∧ t.touched = false ∧
      sameOperands s t ∧ t.mem = s.mem ∧ t.inbox = rest ∧ t.hostData = s.hostData ∧ t.freeCtr = s.freeCtr

/-- A write while BUSY = 1 changes nothing but DROPPED, which it sets when the register is CMD or RW
(`70_reset_and_hazards.md` R241, `10_state.md` R11). -/
def Obligations.BusyWritesAreDropped : Prop :=
  ∀ (s : State) (n : Nat) (v : Word) (rest : List Event), s.busy = true →
    s.inbox = .regWrite (8 * n) 8 v :: rest →
    step s = .next { s with inbox := rest,
                            status := { s.status with dropped := s.status.dropped || writableNumber n } }

/-- A write to an RW register with BUSY = 0 stores the bits of its defined fields: the register then reads those bits, 0 in
the reserved ones and the derived BPP, and every other register, every space and the handshake stay as they were
(`10_state.md` R11, R25). -/
def Obligations.IdleWriteStoresDefinedFields : Prop :=
  ∀ (s : State) (n : Nat) (v : Word) (rest : List Event), s.busy = false → 3 ≤ n → n ≤ 17 →
    s.inbox = .regWrite (8 * n) 8 v :: rest →
    ∃ t r, step s = .next t ∧ regOfNumber n = some r ∧
      regValue t r = (v &&& storedMask n) ||| derivedBits n v ∧
      (∀ r', r' ≠ r → regValue t r' = regValue s r') ∧
      t.engine = s.engine ∧ t.scan = s.scan ∧ t.mem = s.mem ∧ t.touched = s.touched ∧
      t.inbox = rest ∧ t.hostData = s.hostData ∧ t.freeCtr = s.freeCtr

/-- A write to an RO register or to a number above 0x1A changes nothing, a read of a number above 0x1A returns 0
(`10_state.md` R11). -/
def Obligations.OtherRegistersIgnoreWrites : Prop :=
  ∀ (s : State) (n : Nat) (v : Word) (rest : List Event), writableNumber n = false →
    (s.inbox = .regWrite (8 * n) 8 v :: rest → step s = .next { s with inbox := rest }) ∧
    (26 < n → s.inbox = .regRead (8 * n) 8 :: rest → step s = .next { s with inbox := rest, hostData := 0#64 })

/-- While BUSY = 1 a read of a result register returns a free value, and a read of any other register its value, STATUS
with BUSY set among them; no read changes the PDE (`10_state.md` R11, R17, `70_reset_and_hazards.md` R241; the free
value is the model's form of "unspecified", log entry 3). -/
def Obligations.BusyReads : Prop :=
  ∀ (s : State) (n : Nat) (r : Reg) (rest : List Event), s.busy = true → regOfNumber n = some r →
    s.inbox = .regRead (8 * n) 8 :: rest →
    (resultNumber n = true →
      step s = .next { s with inbox := rest, hostData := Config.freeValue s.freeCtr, freeCtr := s.freeCtr + 1 }) ∧
    (resultNumber n = false → step s = .next { s with inbox := rest, hostData := regValue s r }) ∧
    (regValue s .status).getLsbD 0 = true

/-- A register access that is narrower than 64 bits or misaligned is refused (`10_state.md` R10). -/
def Obligations.PartialAccessIsRefused : Prop :=
  ∀ (s : State) (addr nbytes : Nat) (v : Word) (rest : List Event), (nbytes ≠ 8 ∨ addr % 8 ≠ 0) →
    (s.inbox = .regWrite addr nbytes v :: rest → step s = .refused .partialRegisterAccess) ∧
    (s.inbox = .regRead addr nbytes :: rest → step s = .refused .partialRegisterAccess)

/-- With BUSY = 0 the PDE does nothing, whichever lane is let move: every register and all five spaces keep their content
(`60_exceptions.md` R221; that the PDE moves when no event is to come or an event lets it is the model's form of the
outside, log entry 5). -/
def Obligations.IdleMachineStaysAsItIs : Prop :=
  ∀ s : State, s.busy = false →
    (∀ pick, pdeStep pick s = .next s) ∧ (s.inbox = [] → step s = .next s) ∧
    (∀ i rest, s.inbox = .engine i :: rest → step s = .next { s with inbox := rest })

/-! ### Reset -/

/-- What every register reads after reset, that no command runs, and that no byte of the spaces has a value
(`10_state.md` R41, `70_reset_and_hazards.md` R231, R232). -/
def Obligations.ResetValues : Prop :=
  regValue State.reset .id = 0x0000000050444501#64 ∧ regValue State.reset .cmd = 0#64 ∧
  regValue State.reset .status = 0#64 ∧ regValue State.reset .flags = 0#64 ∧
  regValue State.reset .threshold = 0x3FB999999999999A#64 ∧ regValue State.reset .alpha = 0x3FB999999999999A#64 ∧
  regValue State.reset .aaColor = 0x00000000FFFF00FF#64 ∧ regValue State.reset .diffColor = 0x00000000FF0000FF#64 ∧
  regValue State.reset .diffColorAlt = 0#64 ∧
  regValue State.reset .aLayout = 0x0000010000000000#64 ∧ regValue State.reset .bLayout = 0x0000010000000000#64 ∧
  (∀ r ∈ [Reg.aDims, .aLen, .bDims, .bLen, .ptP, .ptQ, .colin, .count, .res0, .res1, .res2, .resc, .resb, .resp,
    .maxDelta], regValue State.reset r = 0#64) ∧
  (regValue State.reset .lanes).toNat = Config.nLanes ∧
  State.reset.scan.rowNext = 0 ∧ (∀ i, State.reset.lane i = Lane.clear) ∧
  (∀ sp off, readByte State.reset.mem sp off = none) ∧ (∀ sel i, cellGet (palOf State.reset.mem sel) i = none)

/-- A reset, also while a command runs, leaves every register and the scan position as after reset and no byte with a
value; DONE is not set (`70_reset_and_hazards.md` R231, R232, R233; "no value" is the model's form of "unspecified",
log entry 14). -/
def Obligations.ResetFromAnyState : Prop :=
  ∀ (s : State) (rest : List Event), s.inbox = .reset :: rest →
    ∃ t, step s = .next t ∧ t.busy = false ∧ t.status.done = false ∧
      (∀ r, regValue t r = regValue State.reset r) ∧ t.scan = State.reset.scan ∧
      (∀ sp off, readByte t.mem sp off = none) ∧ (∀ sel i, cellGet (palOf t.mem sel) i = none) ∧ t.inbox = rest

/-! ### The checks -/

/-- The precheck raises at the first condition that holds, in the order of its six steps
(`60_exceptions.md` R212). -/
def Obligations.PrecheckIsTheOrderedList : Prop :=
  ∀ (s : State) (c : Checks), precheck s c = firstThat (precheckList s c)

/-- VALID(s) is its three conditions, a precheck that raises nothing makes every buffer it names VALID and puts its points
inside, and a VALID buffer keeps every byte of an inside pixel below LEN (`20_memory.md` R78, R51) and so below 2^40
(`20_memory.md` R62). -/
def Obligations.ValidPixelsLieBelowLen : Prop :=
  (∀ d : Desc, d.valid = true ↔ (d.model.toNat ≤ 9 ∧ d.w.toNat * bytesPerPixel d.model ≤ d.stride.toNat ∧
    d.stride.toNat * d.h.toNat ≤ d.len.toNat)) ∧
  (∀ (s : State) (c : Checks), precheck s c = none →
    (∀ sel ∈ c.bufs, (s.desc sel).valid = true ∧ (s.desc sel).w ≠ 0#16 ∧ (s.desc sel).h ≠ 0#16) ∧
    (∀ sel, c.pointP = some sel → (s.desc sel).inside ⟨s.ptP.x.toNat, s.ptP.y.toNat⟩ = true) ∧
    (∀ sel, c.pointQ = some sel → (s.desc sel).inside ⟨s.ptQ.x.toNat, s.ptQ.y.toNat⟩ = true)) ∧
  (∀ (d : Desc) (p : Point), d.valid = true → d.inside p = true →
    pixelOffset d p + d.bpp ≤ d.len.toNat ∧ pixelOffset d p + d.bpp < 2 ^ 40)

/-- A command that reports an error has changed nothing but STATUS (`60_exceptions.md` R200, R211), for every command
accepted with ERR = 0 and no forbidden host access. -/
def Obligations.ErrorsChangeOnlyStatus : Prop :=
  ∀ (i : Instr) (s t : State) (e : CmdError), s.touched = false → s.status.err = none →
    exec i s = .next t → t.status.err = some e → refusedWith s t e

/-- DIMEQ, IDENT, YIQ and BLENDW never raise an error (`60_exceptions.md` R201). -/
def Obligations.FourCommandsNeverFail : Prop :=
  ∀ (i : Instr) (s t : State), i ∈ [Instr.dimeq, .ident, .yiq, .blendw] → exec i s = .next t → ended t none

/-! ### The pixel fetch -/

/-- B of each model, and the canonical read of each of the ten from the bytes at o = y·S + x·B: which byte is which channel,
the low bytes of 16-bit channels left out (`20_memory.md` R55, R56, R61, R62, R64 to R69). And the stops: the first byte
that the read needs and nothing has written faults, and so does an unwritten palette entry of the index; the raw pixel
faults at its first unwritten byte (`20_memory.md` R54, R63). Which bytes are needed and in what order is log entry 10, the
fault log entry 13. -/
def Obligations.CanonicalReadOfEveryModel : Prop :=
  (∀ model : BitVec 4, bytesPerPixel model = bppTable.getD model.toNat 0) ∧
  ∀ (s : State) (sel : Sel) (p : Point) (o : Nat) (v : Nat → Byte),
    o = p.y * (s.desc sel).stride.toNat + p.x * bytesPerPixel (s.desc sel).model →
    ((∀ k ∈ neededBytes (s.desc sel).model.toNat, readByte s.mem (imgOf sel) (o + k) = some (v k)) →
      ((s.desc sel).model.toNat ∈ [0, 1] → canonPixel s sel p = .ok ⟨v 0, v 0, v 0, 255#8⟩) ∧
      ((s.desc sel).model.toNat ∈ [2, 3] → canonPixel s sel p = .ok ⟨255#8, 255#8, 255#8, v 0⟩) ∧
      ((s.desc sel).model.toNat ∈ [4, 5] → canonPixel s sel p = .ok ⟨v 0, v 1, v 2, v 3⟩) ∧
      ((s.desc sel).model.toNat ∈ [6, 7] → canonPixel s sel p = .ok ⟨v 0, v 2, v 4, v 6⟩) ∧
      ((s.desc sel).model.toNat = 8 → canonPixel s sel p =
        .ok ⟨(Config.cmykToRgb (v 0) (v 1) (v 2) (v 3)).1, (Config.cmykToRgb (v 0) (v 1) (v 2) (v 3)).2.1,
          (Config.cmykToRgb (v 0) (v 1) (v 2) (v 3)).2.2, 255#8⟩) ∧
      (∀ e, (s.desc sel).model.toNat = 9 → cellGet (palOf s.mem sel) (v 0).toNat = some e → canonPixel s sel p =
        .ok ⟨e.extractLsb' 24 8, e.extractLsb' 16 8, e.extractLsb' 8 8, e.extractLsb' 0 8⟩) ∧
      ((s.desc sel).model.toNat = 9 → cellGet (palOf s.mem sel) (v 0).toNat = none →
        canonPixel s sel p = .error (.unwrittenEntry sel (v 0).toNat))) ∧
    (∀ k ∈ neededBytes (s.desc sel).model.toNat,
      (∀ j ∈ neededBytes (s.desc sel).model.toNat, j < k → ∃ w, readByte s.mem (imgOf sel) (o + j) = some w) →
      readByte s.mem (imgOf sel) (o + k) = none → canonPixel s sel p = .error (.unwrittenByte sel (o + k))) ∧
    (∀ k, k < bytesPerPixel (s.desc sel).model →
      (∀ j, j < k → ∃ w, readByte s.mem (imgOf sel) (o + j) = some w) →
      readByte s.mem (imgOf sel) (o + k) = none → rawPixel s sel p = .error (.unwrittenByte sel (o + k)))

/-- POS with a passing precheck writes y·S + x·B of its buffer and its own stride to RESP, exactly, no bit lost
(`43_compare.md` R170, `20_memory.md` R62); otherwise it ends with the precheck's error. Its word is 5 | SEL1<<9. -/
def Obligations.PosWritesTheOffset : Prop :=
  (∀ sel : Sel, decodeWord (0x00000005#32 ||| (if sel = .b then 0x200#32 else 0#32)) = .ok (.pos sel)) ∧
  ∀ (s : State) (sel : Sel), s.touched = false →
    (precheck s ⟨[sel], false, false, some sel, none⟩ = none →
      ∃ t, exec (.pos sel) s = .next t ∧ ended t none ∧
        t.res.resp.toNat = s.ptP.y.toNat * (s.desc sel).stride.toNat +
          s.ptP.x.toNat * bytesPerPixel (s.desc sel).model) ∧
    (∀ e, precheck s ⟨[sel], false, false, some sel, none⟩ = some e →
      ∃ t, exec (.pos sel) s = .next t ∧ refusedWith s t e)

/-- RDPIX with a passing precheck and a readable pixel packs its canonical colour into RESC; otherwise it ends with the
precheck's error (`43_compare.md` R171). Where the pixel is not readable it faults as the read does (log entry 13). Its word
is 6 | SEL1<<9. -/
def Obligations.RdpixPacksTheCanonicalColour : Prop :=
  (∀ sel : Sel, decodeWord (0x00000006#32 ||| (if sel = .b then 0x200#32 else 0#32)) = .ok (.rdpix sel)) ∧
  ∀ (s : State) (sel : Sel), s.touched = false →
    (∀ c, precheck s ⟨[sel], false, false, some sel, none⟩ = none →
      canonPixel s sel ⟨s.ptP.x.toNat, s.ptP.y.toNat⟩ = .ok c →
      ∃ t, exec (.rdpix sel) s = .next t ∧ ended t none ∧
        t.res.resc.extractLsb' 24 8 = c.r ∧ t.res.resc.extractLsb' 16 8 = c.g ∧
        t.res.resc.extractLsb' 8 8 = c.b ∧ t.res.resc.extractLsb' 0 8 = c.a) ∧
    (∀ f, precheck s ⟨[sel], false, false, some sel, none⟩ = none →
      canonPixel s sel ⟨s.ptP.x.toNat, s.ptP.y.toNat⟩ = .error f → exec (.rdpix sel) s = .fault f) ∧
    (∀ e, precheck s ⟨[sel], false, false, some sel, none⟩ = some e →
      ∃ t, exec (.rdpix sel) s = .next t ∧ refusedWith s t e)

/-- DIMEQ: RESB.BOOL <- (A_DIMS.W == B_DIMS.W and A_DIMS.H == B_DIMS.H), no error, not even for empty buffers
(`43_compare.md` R173). Its word is 3. -/
def Obligations.DimeqComparesDimensions : Prop :=
  decodeWord 0x00000003#32 = .ok .dimeq ∧
  ∀ s : State, ∃ t, exec .dimeq s = .next t ∧ ended t none ∧
    (t.res.resBool = true ↔ (s.descA.w = s.descB.w ∧ s.descA.h = s.descB.h))

/-- IDENT: RESB.BOOL is 1 iff the lengths are equal and so is every byte below them; no error, no descriptor field but LEN
(`43_compare.md` R174, `20_memory.md` R72). It completes when the bytes it compares have been written. That it needs all
of them for equal lengths, those of A first, faulting at the first that nothing has written, and completes for unequal
lengths with no byte written, is the model's reading, log entries 9 and 13.
Its word is 4. -/
def Obligations.IdentComparesWholeArrays : Prop :=
  decodeWord 0x00000004#32 = .ok .ident ∧
  (∀ s : State,
    (s.descA.len = s.descB.len → ∀ k, k < s.descA.len.toNat →
      (∃ v, readByte s.mem .imgA k = some v) ∧ ∃ v, readByte s.mem .imgB k = some v) →
    ∃ t, exec .ident s = .next t ∧ ended t none ∧
      (t.res.resBool = true ↔ (s.descA.len = s.descB.len ∧
        ∀ k, k < s.descA.len.toNat → readByte s.mem .imgA k = readByte s.mem .imgB k))) ∧
  (∀ (s : State) (k : Nat), s.descA.len = s.descB.len → k < s.descA.len.toNat →
    ((∀ j, j < k → ∃ v, readByte s.mem .imgA j = some v) → readByte s.mem .imgA k = none →
      exec .ident s = .fault (.unwrittenByte .a k)) ∧
    ((∀ j, j < s.descA.len.toNat → ∃ v, readByte s.mem .imgA j = some v) →
      (∀ j, j < k → ∃ v, readByte s.mem .imgB j = some v) → readByte s.mem .imgB k = none →
      exec .ident s = .fault (.unwrittenByte .b k)))

/-! ### The colour converter -/

/-- YIQ: the three components of COLIN's R, G, B by the formulas of `40_color.md` R123 to R125, products first, then left
to right, alpha ignored; no error (`40_color.md` R126). Its word is 7. -/
def Obligations.YiqWritesTheComponents : Prop :=
  decodeWord 0x00000007#32 = .ok .yiq ∧
  ∀ (s : State) (red green blue : F64), red = f64OfNat (s.colin.extractLsb' 24 8).toNat →
    green = f64OfNat (s.colin.extractLsb' 16 8).toNat → blue = f64OfNat (s.colin.extractLsb' 8 8).toNat →
    ∃ t, exec .yiq s = .next t ∧ ended t none ∧
      t.res.res0 = fadd (fadd (fmul 0x3FD32119CB582D94#64 red) (fmul 0x3FE2C59C7C77F5B0#64 green))
        (fmul 0x3FBD4EB519D2B9F7#64 blue) ∧
      t.res.res1 = fsub (fsub (fmul 0x3FE312406F05F232#64 red) (fmul 0x3FD18C19E9B6119F#64 green))
        (fmul 0x3FD49866F455D2C5#64 blue) ∧
      t.res.res2 = fadd (fsub (fmul 0x3FCB11745C1D623C#64 red) (fmul 0x3FE0B9478478F60B#64 green))
        (fmul 0x3FD3E9D4DAE33AF8#64 blue)

/-- BLENDW: R', G', B' by `c' = 255 + (c - 255)·a` with a = A/255, for every A; no error
(`40_color.md` R127, R128). Its word is 8. -/
def Obligations.BlendwBlendsOverWhite : Prop :=
  decodeWord 0x00000008#32 = .ok .blendw ∧
  ∀ (s : State) (a : F64), a = fdiv (f64OfNat (s.colin.extractLsb' 0 8).toNat) 0x406FE00000000000#64 →
    ∃ t, exec .blendw s = .next t ∧ ended t none ∧
      t.res.res0 = fadd 0x406FE00000000000#64
        (fmul (fsub (f64OfNat (s.colin.extractLsb' 24 8).toNat) 0x406FE00000000000#64) a) ∧
      t.res.res1 = fadd 0x406FE00000000000#64
        (fmul (fsub (f64OfNat (s.colin.extractLsb' 16 8).toNat) 0x406FE00000000000#64) a) ∧
      t.res.res2 = fadd 0x406FE00000000000#64
        (fmul (fsub (f64OfNat (s.colin.extractLsb' 8 8).toNat) 0x406FE00000000000#64) a)

/-- The exact cases of the blend: A = 255 is the identity, A = 0 gives 255.0 three times, whatever R, G, B are
(`40_color.md` R127). -/
def Obligations.BlendIsExactAtTheEnds : Prop :=
  ∀ c : Color, (c.a = 255#8 → blend c = ⟨f64OfNat c.r.toNat, f64OfNat c.g.toNat, f64OfNat c.b.toNat⟩) ∧
    (c.a = 0#8 → blend c = ⟨f64OfNat 255, f64OfNat 255, f64OfNat 255⟩)

/-- GRAYBL with ALPHA in [0,1]: RESC is the opaque gray, 255 when A = 0, else 255 + (y - 255)·m of the unblended colour,
clamped to 0..255 and truncated; otherwise BAD_PARAM with ERRINFO 4 (`40_color.md` R129, R130). Its word is 9. -/
def Obligations.GrayblWritesTheGray : Prop :=
  decodeWord 0x00000009#32 = .ok .graybl ∧
  ∀ (s : State) (y v : F64) (gray : Byte), s.touched = false →
    y = yOf ⟨f64OfNat (s.colin.extractLsb' 24 8).toNat, f64OfNat (s.colin.extractLsb' 16 8).toNat,
      f64OfNat (s.colin.extractLsb' 8 8).toNat⟩ →
    v = fadd 0x406FE00000000000#64 (fmul (fsub y 0x406FE00000000000#64) s.opts.alpha) →
    gray = (if s.colin.extractLsb' 0 8 = 0#8 then 255#8
      else if flt v 0#64 then 0#8 else if flt 0x406FE00000000000#64 v then 255#8 else truncU8 v) →
    ((fle 0#64 s.opts.alpha = true ∧ fle s.opts.alpha 0x3FF0000000000000#64 = true) →
      ∃ t, exec .graybl s = .next t ∧ ended t none ∧ t.res.resc = gray ++ gray ++ gray ++ 255#8) ∧
    (¬(fle 0#64 s.opts.alpha = true ∧ fle s.opts.alpha 0x3FF0000000000000#64 = true) →
      ∃ t, exec .graybl s = .next t ∧ refusedWith s t (.badParam .alphaRange) ∧ errInfo t.status.err = 4#4)

/-- The mixing factor 0.0 gives gray 255 for every colour (`40_color.md` R130). -/
def Obligations.GrayFactorZeroIsWhite : Prop :=
  ∀ c : Color, grayblend c 0x0000000000000000#64 = ⟨255#8, 255#8, 255#8, 255#8⟩

/-- A rounding gives the f64 nearest to the exact value num/den (in units of 2^-1074), and of two equally near ones the
one whose last bit is 0, and a negative value is rounded as its magnitude is; and each of the four operations on finite
operands, its result not overflowing, is its exact result so rounded (`40_color.md` R121 (a)). -/
def Obligations.RoundingIsToNearestEven : Prop :=
  (∀ (num den : Nat) (x : F64), 0 < den → fIsNaN x = false → fIsInf x = false → fSign x = false →
    fIsInf (fRound false num den) = false →
    natDist num (fMag (fRound false num den) * den) ≤ natDist num (fMag x * den) ∧
    (natDist num (fMag (fRound false num den) * den) = natDist num (fMag x * den) → x ≠ fRound false num den →
      (fRound false num den).getLsbD 0 = false)) ∧
  (∀ num den : Nat, fRound true num den = 0x8000000000000000#64 ||| fRound false num den) ∧
  (∀ x y : F64, isFinite x → isFinite y →
    (fIsInf (fadd x y) = false → isRounded (fadd x y) (fVal x + fVal y) 1) ∧
    (fIsInf (fsub x y) = false → isRounded (fsub x y) (fVal x - fVal y) 1) ∧
    (fIsInf (fmul x y) = false → isRounded (fmul x y) (fVal x * fVal y) fOne) ∧
    (fIsZero y = false → fIsInf (fdiv x y) = false →
      isRounded (fdiv x y) (fVal x * (fOne : Int) * (fVal y).sign) (fVal y).natAbs))

/-! ### The colour-delta unit -/

/-- CDELTA with a passing precheck and readable pixels writes the delta of the canonical colour of PT_P in SEL1 against
that of PT_Q in SEL2; otherwise it ends with the precheck's error. The buffers' dimensions need not agree
(`41_delta.md` R142, R149). Its word is 10 | ONLY_Y<<8 | SEL1<<9 | SEL2<<10. -/
def Obligations.CdeltaWritesTheDelta : Prop :=
  (∀ (y : Bool) (s1 s2 : Sel), decodeWord (0x0000000A#32 ||| (if y then 0x100#32 else 0#32) |||
      (if s1 = .b then 0x200#32 else 0#32) ||| (if s2 = .b then 0x400#32 else 0#32)) = .ok (.cdelta y s1 s2)) ∧
  ∀ (s : State) (y : Bool) (s1 s2 : Sel) (bufs : List Sel), s.touched = false →
    bufs = (if s1 = s2 then [s1] else [.a, .b]) →
    (∀ ca cb, precheck s ⟨bufs, false, false, some s1, some s2⟩ = none →
      canonPixel s s1 ⟨s.ptP.x.toNat, s.ptP.y.toNat⟩ = .ok ca →
      canonPixel s s2 ⟨s.ptQ.x.toNat, s.ptQ.y.toNat⟩ = .ok cb →
      ∃ t, exec (.cdelta y s1 s2) s = .next t ∧ ended t none ∧ t.res.res0 = colorDelta ca cb y) ∧
    (∀ e, precheck s ⟨bufs, false, false, some s1, some s2⟩ = some e →
      ∃ t, exec (.cdelta y s1 s2) s = .next t ∧ refusedWith s t e)

/-- The delta of two colours by its steps 2 to 7: +0.0 for equal colours; else each colour over white by its own alpha,
the brightness difference in brightness-only mode, the weighted sum of squares otherwise, its sign bit set exactly when
the first is brighter (`41_delta.md` R141, R143 to R147). -/
def Obligations.DeltaBySteps : Prop :=
  ∀ (ca cb : Color) (p q : Rgb) (dy di dq d : F64),
    p = (if ca.a = 255#8 then ⟨f64OfNat ca.r.toNat, f64OfNat ca.g.toNat, f64OfNat ca.b.toNat⟩ else blend ca) →
    q = (if cb.a = 255#8 then ⟨f64OfNat cb.r.toNat, f64OfNat cb.g.toNat, f64OfNat cb.b.toNat⟩ else blend cb) →
    dy = fsub (yOf p) (yOf q) → di = fsub (iOf p) (iOf q) → dq = fsub (qOf p) (qOf q) →
    d = fadd (fadd (fmul 0x3FE02B6AE7D566CF#64 (fmul dy dy)) (fmul 0x3FD322D0E5604189#64 (fmul di di)))
      (fmul 0x3FC90CB295E9E1B1#64 (fmul dq dq)) →
    (ca = cb → ∀ y, colorDelta ca cb y = 0#64) ∧
    (ca ≠ cb → colorDelta ca cb true = dy) ∧
    (ca ≠ cb → flt (yOf q) (yOf p) = true → colorDelta ca cb false = 0x8000000000000000#64 ||| d) ∧
    (ca ≠ cb → flt (yOf q) (yOf p) = false → colorDelta ca cb false = d)

/-- The magnitude of the delta is the same both ways round, bit for bit (`41_delta.md` R147). -/
def Obligations.DeltaMagnitudeIsSymmetric : Prop :=
  ∀ ca cb : Color, fabs (colorDelta ca cb false) = fabs (colorDelta cb ca false)

/-- No delta is a NaN or an infinity (`40_color.md` R131). -/
def Obligations.DeltaIsFinite : Prop :=
  ∀ (ca cb : Color) (y : Bool), fIsNaN (colorDelta ca cb y) = false ∧ fIsInf (colorDelta ca cb y) = false

/-- The activation threshold does not decrease with THRESHOLD on [0,1] (`41_delta.md` R148). -/
def Obligations.MaxDeltaIsMonotone : Prop :=
  ∀ t u : F64, fle 0#64 t = true → fle t u = true → fle u 0x3FF0000000000000#64 = true →
    fle (maxDeltaOf t) (maxDeltaOf u) = true

/-! ### The neighbourhood classifier -/

/-- The neighbours of an inside point are the other points of the image at most one column and one row away, each once
(`42_neighborhood.md` R150). -/
def Obligations.NeighboursAreTheClampedBlock : Prop :=
  ∀ (d : Desc) (p : Point), d.inside p = true →
    (neighbours d p).Nodup ∧ (neighbours d p).length ≤ 8 ∧
    ∀ q, q ∈ neighbours d p ↔
      (q ≠ p ∧ d.inside q = true ∧ q.x ≤ p.x + 1 ∧ p.x ≤ q.x + 1 ∧ q.y ≤ p.y + 1 ∧ p.y ≤ q.y + 1)

/-- The neighbours of an interior point in the order of the scan, columns outside, rows inside
(`42_neighborhood.md` R152). -/
def Obligations.ScanOrderIsColumnFirst : Prop :=
  ∀ (d : Desc) (x y : Nat), x + 2 < d.w.toNat → y + 2 < d.h.toNat →
    neighbours d ⟨x + 1, y + 1⟩ =
      [⟨x, y⟩, ⟨x, y + 1⟩, ⟨x, y + 2⟩, ⟨x + 1, y⟩, ⟨x + 1, y + 2⟩, ⟨x + 2, y⟩, ⟨x + 2, y + 1⟩, ⟨x + 2, y + 2⟩]

/-- The bump is 1 exactly on the border of the image, 0 elsewhere (`42_neighborhood.md` R151). -/
def Obligations.BumpIsOneOnTheBorder : Prop :=
  ∀ (d : Desc) (p : Point), d.inside p = true →
    bump d p = if p.x = 0 ∨ p.x + 1 = d.w.toNat ∨ p.y = 0 ∨ p.y + 1 = d.h.toNat then 1 else 0

/-- `same_neighbors` is (bump + equal neighbours > n), for n ≥ 1, when the raw bytes of the window are readable
(`42_neighborhood.md` R153). -/
def Obligations.SameNeighborsCounts : Prop :=
  ∀ (s : State) (sel : Sel) (p : Point) (n : Nat) (raw : Point → List Byte), 1 ≤ n →
    (∀ q ∈ p :: neighbours (s.desc sel) p, rawPixel s sel q = .ok (raw q)) →
    sameNeighbors s sel p n =
      .ok (decide (n < bump (s.desc sel) p + (neighbours (s.desc sel) p).countP (fun q => decide (raw q = raw p))))

/-- SAMENB: N = 0 ends with BAD_PARAM(N_RANGE) before anything else; then the precheck; then RESB.BOOL is the count test
(`42_neighborhood.md` R154). Its word is 11 | SEL1<<9 | N<<12. -/
def Obligations.SamenbTestsTheCount : Prop :=
  (∀ (sel : Sel) (n : Nat), n < 16 →
    decodeWord (0x0000000B#32 ||| (if sel = .b then 0x200#32 else 0#32) ||| BitVec.ofNat 32 n <<< 12) =
      .ok (.samenb sel n)) ∧
  ∀ (s : State) (sel : Sel) (n : Nat), s.touched = false →
    (n = 0 → ∃ t, exec (.samenb sel n) s = .next t ∧ refusedWith s t (.badParam .nRange) ∧
      errInfo t.status.err = 7#4) ∧
    (∀ e, n ≠ 0 → precheck s ⟨[sel], false, false, some sel, none⟩ = some e →
      ∃ t, exec (.samenb sel n) s = .next t ∧ refusedWith s t e) ∧
    (∀ (p : Point) (raw : Point → List Byte), n ≠ 0 → precheck s ⟨[sel], false, false, some sel, none⟩ = none →
      p = ⟨s.ptP.x.toNat, s.ptP.y.toNat⟩ →
      (∀ q ∈ p :: neighbours (s.desc sel) p, rawPixel s sel q = .ok (raw q)) →
      ∃ t, exec (.samenb sel n) s = .next t ∧ ended t none ∧
        t.res.resBool = decide (n < bump (s.desc sel) p +
          (neighbours (s.desc sel) p).countP (fun q => decide (raw q = raw p))))

/-- `antialiased` is false when the bump and the flat neighbours together are more than two ("too flat to be AA"), and
when no neighbour is brighter or none is darker than p (`42_neighborhood.md` R156, R157). -/
def Obligations.AntialiasedIsFalseWhenFlatOrOneSided : Prop :=
  ∀ (s : State) (sa sb : Sel) (p : Point) (dy : Point → F64),
    (∀ q ∈ neighbours (s.desc sa) p, delta s sa p sa q true = .ok (dy q)) →
    ((2 < bump (s.desc sa) p + (neighbours (s.desc sa) p).countP (fun q => feq (dy q) cZero)) ∨
      (∀ q ∈ neighbours (s.desc sa) p, flt (dy q) cZero = false) ∨
      (∀ q ∈ neighbours (s.desc sa) p, flt cZero (dy q) = false)) →
    antialiased s sa sb p = .ok false

/-- `antialiased` is true only between a brighter and a darker neighbour of which at least one has more than three
matching neighbours, its bump counted, in both images. And its value exactly: where the bump and the flat neighbours are
at most two together, with lo the first-visited neighbour of the smallest difference, below 0, and hi the first-visited
one of the largest, above 0, it is true when `same_neighbors` with 3 holds at lo in both images, and otherwise it is
whether it holds at hi in both (`42_neighborhood.md` R155 to R158). -/
def Obligations.AntialiasedNeedsTwoExtrema : Prop :=
  (∀ (s : State) (sa sb : Sel) (p : Point), antialiased s sa sb p = .ok true →
    ∃ lo hi dlo dhi, lo ∈ neighbours (s.desc sa) p ∧ hi ∈ neighbours (s.desc sa) p ∧
      delta s sa p sa lo true = .ok dlo ∧ delta s sa p sa hi true = .ok dhi ∧
      flt dlo cZero = true ∧ flt cZero dhi = true ∧
      ((sameNeighbors s sa lo 3 = .ok true ∧ sameNeighbors s sb lo 3 = .ok true) ∨
        (sameNeighbors s sa hi 3 = .ok true ∧ sameNeighbors s sb hi 3 = .ok true))) ∧
  (∀ (s : State) (sa sb : Sel) (p lo hi : Point) (dy : Point → F64),
    (∀ q ∈ neighbours (s.desc sa) p, delta s sa p sa q true = .ok (dy q)) →
    bump (s.desc sa) p + (neighbours (s.desc sa) p).countP (fun q => feq (dy q) cZero) ≤ 2 →
    firstSmallest dy (neighbours (s.desc sa) p) lo → flt (dy lo) cZero = true →
    firstLargest dy (neighbours (s.desc sa) p) hi → flt cZero (dy hi) = true →
    (sameNeighbors s sa lo 3 = .ok true → sameNeighbors s sb lo 3 = .ok true → antialiased s sa sb p = .ok true) ∧
    ((sameNeighbors s sa lo 3 = .ok false ∨
        (sameNeighbors s sa lo 3 = .ok true ∧ sameNeighbors s sb lo 3 = .ok false)) →
      (∀ v, sameNeighbors s sa hi 3 = .ok true → sameNeighbors s sb hi 3 = .ok v → antialiased s sa sb p = .ok v) ∧
      (sameNeighbors s sa hi 3 = .ok false → antialiased s sa sb p = .ok false)))

/-- AA with a passing precheck, equal dimensions among its tests, writes `antialiased(SEL1, SEL2, PT_P)` to RESB.BOOL;
otherwise it ends with the precheck's error (`42_neighborhood.md` R160). Its word is 12 | SEL1<<9 | SEL2<<10. -/
def Obligations.AaWritesTheVerdict : Prop :=
  (∀ s1 s2 : Sel, decodeWord (0x0000000C#32 ||| (if s1 = .b then 0x200#32 else 0#32) |||
    (if s2 = .b then 0x400#32 else 0#32)) = .ok (.aa s1 s2)) ∧
  ∀ (s : State) (s1 s2 : Sel) (bufs : List Sel), s.touched = false →
    bufs = (if s1 = s2 then [s1] else [.a, .b]) →
    (∀ v, precheck s ⟨bufs, true, false, some s1, none⟩ = none →
      antialiased s s1 s2 ⟨s.ptP.x.toNat, s.ptP.y.toNat⟩ = .ok v →
      ∃ t, exec (.aa s1 s2) s = .next t ∧ ended t none ∧ t.res.resBool = v) ∧
    (∀ e, precheck s ⟨bufs, true, false, some s1, none⟩ = some e →
      ∃ t, exec (.aa s1 s2) s = .next t ∧ refusedWith s t e)

/-! ### The comparator -/

/-- PIXEL with a passing precheck: MAXDELTA from THRESHOLD, RES0 the delta, the class by |delta| against MAXDELTA and the
anti-aliasing test asked both ways, WR and the colour by the class and the options, COUNT 1 exactly for DIFFERENT; otherwise
the precheck's error. The test asked both ways is `antialiased(A, B, p)` or `antialiased(B, A, p)`
(`43_compare.md` R172, R175, R176, R177, `41_delta.md` R148). -/
def Obligations.PixelJudgesOnePixel : Prop :=
  (∀ (s : State) (p : Point) (v : Bool),
    (antialiased s .a .b p = .ok true → aaEither s p = .ok true) ∧
    (antialiased s .a .b p = .ok false → antialiased s .b .a p = .ok v → aaEither s p = .ok v)) ∧
  ∀ (s : State) (p : Point) (md : F64), s.touched = false → p = ⟨s.ptP.x.toNat, s.ptP.y.toNat⟩ →
    md = fmul 0x40E131E000000000#64 (fmul s.opts.threshold s.opts.threshold) →
    (∀ ca cb d aa, precheck s ⟨[.a, .b], true, true, some .a, none⟩ = none →
      canonPixel s .a p = .ok ca → canonPixel s .b p = .ok cb → d = colorDelta ca cb false →
      (flt md (fabs d) = true → s.opts.flags.includeAa = false → aaEither s p = .ok aa) →
      ∃ t, exec .pixel s = .next t ∧ ended t none ∧ t.res.maxDelta = md ∧ t.res.res0 = d ∧
        t.res.resClass = (if flt md (fabs d) then
          (if !s.opts.flags.includeAa && aa then .antialiased else .different) else .unchanged) ∧
        t.res.resWr = (s.opts.flags.outputEn && (t.res.resClass = .different || !s.opts.flags.diffMask)) ∧
        t.res.count = (if t.res.resClass = .different then 1#32 else 0#32) ∧
        (t.res.resWr = false → t.res.resc = 0#32) ∧
        (t.res.resWr = true → t.res.resClass = .antialiased → t.res.resc = s.opts.aaColor) ∧
        (t.res.resWr = true → t.res.resClass = .different → t.res.resc =
          if s.opts.flags.altValid && flt d 0#64 then s.opts.diffColorAlt else s.opts.diffColor) ∧
        (t.res.resWr = true → t.res.resClass = .unchanged →
          t.res.resc = packColor (grayblend ca s.opts.alpha))) ∧
    (∀ e, precheck s ⟨[.a, .b], true, true, some .a, none⟩ = some e →
      ∃ t, exec .pixel s = .next t ∧ refusedWith s t e)

/-- The frame of every command but CMP, however it ends: the option and operand registers, every byte and palette entry,
the scan position, OUTVALID and DROPPED are as they were, and every register but STATUS that the command's row of
`30_encoding.md` R93 does not list as written reads as before (also `10_state.md` R10, `20_memory.md` R50). -/
def Obligations.HelperCommandFrame : Prop :=
  ∀ (i : Instr) (s t : State), i ≠ .cmp → s.touched = false → exec i s = .next t →
    sameOperands s t ∧ sameCells s t ∧ sameOutside s t ∧ t.scan = s.scan ∧
    t.status.outValid = s.status.outValid ∧ t.status.dropped = s.status.dropped ∧
    t.busy = false ∧ t.status.done = true ∧
    ∀ r, r ≠ .status → writesReg i r = false → regValue t r = regValue s r

/-! ### CMP -/

/-- The first two gates of CMP in their order, before any byte is read: EMPTY_IMAGE if either buffer is empty, whatever
else is wrong; DIMENSIONS_MISMATCH if neither is and the dimensions differ (`43_compare.md` R181, R182). -/
def Obligations.CmpDocumentGates : Prop :=
  ∀ s : State, s.touched = false →
    ((s.descA.w = 0#16 ∨ s.descA.h = 0#16 ∨ s.descB.w = 0#16 ∨ s.descB.h = 0#16) →
      ∃ t, exec .cmp s = .next t ∧ refusedWith s t .emptyImage) ∧
    (s.descA.w ≠ 0#16 → s.descA.h ≠ 0#16 → s.descB.w ≠ 0#16 → s.descB.h ≠ 0#16 →
      (s.descA.w ≠ s.descB.w ∨ s.descA.h ≠ s.descB.h) →
      ∃ t, exec .cmp s = .next t ∧ refusedWith s t .dimensionsMismatch)

/-- The identity gate: with non-empty buffers of equal dimensions and equal lengths whose bytes are all written and equal,
CMP completes with COUNT 0, OUTVALID 0 and no error, and MAXDELTA, every other result register, DROPPED, the scan position,
OUT and every other cell as they were, whatever the models, strides and options are (`43_compare.md` R183,
`30_encoding.md` R93). -/
def Obligations.CmpIdentityFastPath : Prop :=
  ∀ s : State, s.touched = false → s.descA.w ≠ 0#16 → s.descA.h ≠ 0#16 →
    s.descB.w = s.descA.w → s.descB.h = s.descA.h → s.descB.len = s.descA.len →
    (∀ k, k < s.descA.len.toNat → ∃ v, readByte s.mem .imgA k = some v ∧ readByte s.mem .imgB k = some v) →
    ∃ t, exec .cmp s = .next t ∧ ended t none ∧ t.status.outValid = false ∧
      t.status.dropped = s.status.dropped ∧ t.res = { s.res with count := 0#32 } ∧ t.scan = s.scan ∧
      t.mem = s.mem ∧ sameOperands s t ∧ sameOutside s t

/-- Past its first three gates CMP raises the hardware's own errors in the precheck's order, or does its step 4: MAXDELTA
computed, OUT bytes 0 .. 4·W·H-1 zeroed if an output is requested, OUT above and every other cell untouched, the scan
position cleared and the scan begun with BUSY still 1 (`43_compare.md` R184, R185, R186, `20_memory.md` R71). -/
def Obligations.CmpStartsItsScan : Prop :=
  ∀ s : State, s.touched = false → documentGates s cmpChecks = none → identicalBytes s = .ok false →
    (∀ e, precheck s ⟨[.a, .b], true, true, none, none⟩ = some e →
      ∃ t, exec .cmp s = .next t ∧ refusedWith s t e) ∧
    (precheck s ⟨[.a, .b], true, true, none, none⟩ = none →
      ∃ t, exec .cmp s = .next t ∧ t.engine = .scanning ∧
        t.res = { s.res with maxDelta := fmul 0x40E131E000000000#64 (fmul s.opts.threshold s.opts.threshold) } ∧
        t.scan.rowNext = 0 ∧ (∀ i, t.lane i = Lane.clear) ∧
        (∀ k, readByte t.mem .out k =
          if s.opts.flags.outputEn = true ∧ k < 4 * (s.descA.w.toNat * s.descA.h.toNat) then some 0#8
          else readByte s.mem .out k) ∧
        sameInputCells s t ∧ sameOperands s t ∧ sameOutside s t ∧ t.status = s.status)

/-- The three steps of a lane that is chosen: DISPATCH when it is free and a row is left, PIXELSTEP while it is in its
row, RETIRE at the row's end. A pixel step stores the four bytes of its colour at 4·(y·W + x) of OUT if the pixel is
written and no others, and adds 1 to the lane's own tally exactly for DIFFERENT; no other lane changes
(`43_compare.md` R187, R188, R191, `20_memory.md` R52, R70). No register changes. That an event chooses the lane is the model's form of the open order, log
entries 5 and 12. -/
def Obligations.LaneStepsByTheirRules : Prop :=
  ∀ (s : State) (i : Nat) (l : Lane) (rest : List Event), s.engine = .scanning → isLane i = true →
    LaneTable.wf s.scan.lanes = true → s.inbox = .engine i :: rest → l = s.lane i →
    (l.active = false → s.scan.rowNext < s.descA.h.toNat →
      ∃ t, step s = .next t ∧ t.scan.rowNext = s.scan.rowNext + 1 ∧
        (∀ j, t.lane j = if j = i then ⟨true, s.scan.rowNext, 0, l.tally⟩ else s.lane j) ∧
        t.mem = s.mem ∧ t.res = s.res ∧ t.status = s.status ∧ sameOperands s t ∧
        t.engine = .scanning ∧ t.inbox = rest ∧ t.hostData = s.hostData ∧ t.freeCtr = s.freeCtr) ∧
    (∀ v, l.active = true → l.x < s.descA.w.toNat → judge s ⟨l.x, l.y⟩ = .ok v →
      ∃ t, step s = .next t ∧ t.scan.rowNext = s.scan.rowNext ∧
        (∀ j, t.lane j = if j = i then
            ⟨true, l.y, l.x + 1, if v.cls = .different then l.tally + 1 else l.tally⟩ else s.lane j) ∧
        (∀ k, readByte t.mem .out k =
          if v.wr = true ∧ 4 * (l.y * s.descA.w.toNat + l.x) ≤ k ∧ k < 4 * (l.y * s.descA.w.toNat + l.x) + 4
          then [v.col.r, v.col.g, v.col.b, v.col.a][k - 4 * (l.y * s.descA.w.toNat + l.x)]?
          else readByte s.mem .out k) ∧
        sameInputCells s t ∧ t.res = s.res ∧ t.status = s.status ∧ sameOperands s t ∧
        t.engine = .scanning ∧ t.inbox = rest ∧ t.hostData = s.hostData ∧ t.freeCtr = s.freeCtr) ∧
    (l.active = true → l.x = s.descA.w.toNat →
      ∃ t, step s = .next t ∧ t.scan.rowNext = s.scan.rowNext ∧
        (∀ j, t.lane j = if j = i then ⟨false, l.y, l.x, l.tally⟩ else s.lane j) ∧
        t.mem = s.mem ∧ t.res = s.res ∧ t.status = s.status ∧ sameOperands s t ∧
        t.engine = .scanning ∧ t.inbox = rest ∧ t.hostData = s.hostData ∧ t.freeCtr = s.freeCtr)

/-- The join: when every row is handed out and no lane is active, the next step of the PDE adds the tallies into COUNT,
sets OUTVALID to OUTPUT_EN, and completes with ERR = 0 (`43_compare.md` R189). -/
def Obligations.JoinCompletesTheComparison : Prop :=
  ∀ s : State, s.engine = .scanning → s.touched = false → s.scan.rowNext = s.descA.height →
    (∀ e ∈ s.scan.lanes, e.2.active = false) → s.inbox = [] →
    ∃ t, step s = .next t ∧ ended t none ∧ t.status.outValid = s.opts.flags.outputEn ∧
      t.res = { s.res with count := BitVec.ofNat 32 ((s.scan.lanes.map (fun e => e.2.tally)).sum) } ∧
      t.mem = s.mem ∧ sameOperands s t

/-- Whatever lanes there are and in whatever order they move, a comparison that ends has COUNT equal to the number of
DIFFERENT pixels, every byte of OUT as the closed form says, OUTVALID as OUTPUT_EN, no error, and every other register as
the scan found it (`43_compare.md` R187, R188, R189, R190, `20_memory.md` R73). That the orders are the lists of lane
choices, with a default when there is none, is log entries 5 and 12, and that N_LANES is at most 65535 is log entry 1. -/
def Obligations.EveryScheduleGivesTheSameResult : Prop :=
  ∀ (s0 s t : State) (n : Nat), exec .cmp s0 = .next s → s.engine = .scanning → s0.touched = false →
    judgeable s → onlyLaneChoices s0.inbox → runSteps n s = .next t → t.busy = false →
    ended t none ∧ t.res.count.toNat = differentCount s ∧ t.res = { s.res with count := t.res.count } ∧
      t.status.outValid = s0.opts.flags.outputEn ∧ t.status.dropped = s0.status.dropped ∧
      (∀ k, readByte t.mem .out k = renderedByte s k) ∧ sameInputCells s0 t ∧ sameOperands s0 t

/-- A comparison whose bytes are written ends: after at most the choices to come and H dispatches, W·H pixels, H
retirements and the join (`43_compare.md` R191, `70_reset_and_hazards.md` R248). The bound rests on the model's default
order and on a choice with no enabled step doing nothing, log entry 12. -/
def Obligations.EveryComparisonEnds : Prop :=
  ∀ (s0 s : State), exec .cmp s0 = .next s → s.engine = .scanning → s0.touched = false →
    judgeable s → onlyLaneChoices s0.inbox →
    ∃ n t, n ≤ s0.inbox.length + (s0.descA.h.toNat * (s0.descA.w.toNat + 2) + 1) ∧
      runSteps n s = .next t ∧ t.busy = false

/-! ### The whole machine -/

/-- Every step keeps the invariant: the spaces canonical, BUSY and DONE never both 1, the scan position legal
(`10_state.md` R16, R36, `20_memory.md` R50, R73). -/
def Obligations.StepKeepsTheInvariant : Prop :=
  ∀ s t : State, Inv s → step s = .next t → Inv t

/-- The invariant holds after reset. -/
def Obligations.InvariantHoldsAtReset : Prop := Inv State.reset

/-- No step of the PDE writes an option or operand register, an image byte or a palette entry
(`10_state.md` R10, `20_memory.md` R50). -/
def Obligations.PdeNeverWritesItsInputs : Prop :=
  ∀ (pick : Option Nat) (s t : State), pdeStep pick s = .next t → sameOperands s t ∧ sameInputCells s t

/-- No step of the PDE writes an OUT byte at an offset of 4·W·H or more, W and H those of A_DIMS (`20_memory.md` R52). For
a command that a forbidden access has marked and that is a helper or has buffers of different dimensions, that these
are the bytes that stay is the model's choice, log entry 6. -/
def Obligations.OutBeyondTheImageIsUntouched : Prop :=
  ∀ (pick : Option Nat) (s t : State) (k : Nat), Inv s → pdeStep pick s = .next t →
    4 * (s.descA.w.toNat * s.descA.h.toNat) ≤ k → readByte t.mem .out k = readByte s.mem .out k

/-- With ALT_VALID = 0 the content of DIFF_COLOR_ALT has no effect on any step of the PDE (`10_state.md` R23). -/
def Obligations.AltColourWithoutAltValidHasNoEffect : Prop :=
  ∀ (pick : Option Nat) (s : State) (v : ColorWord), s.opts.flags.altValid = false →
    (∀ t, pdeStep pick s = .next t →
      pdeStep pick { s with opts := { s.opts with diffColorAlt := v } } =
        .next { t with opts := { t.opts with diffColorAlt := v } }) ∧
    (∀ f, pdeStep pick s = .fault f →
      pdeStep pick { s with opts := { s.opts with diffColorAlt := v } } = .fault f)

/-- A host access to a space while BUSY = 1 marks the command and changes nothing else at once, but that a read gives the
host a free value. A marked command goes on exactly as the same command unmarked: the same steps and the same faults
while it runs, and at its end the same state but for COUNT, MAXDELTA, OUT bytes 0 .. 4·W·H-1 and the count of free
values, the first three of which are free; the mark is gone, so the next command is not affected
(`70_reset_and_hazards.md` R240). That the forbidden write itself stores nothing, and that W and H are those of A_DIMS, is
the model's choice, log entry 6. -/
def Obligations.ForbiddenAccessStaysInTheCommand : Prop :=
  (∀ (s : State) (sp : ByteSpace) (off : Nat) (v : Byte), s.busy = true → off < spaceSize sp →
    outsideStep (.store sp off v) s = .next { s with touched := true } ∧
    outsideStep (.load sp off) s =
      .next { s with touched := true, hostData := Config.freeValue s.freeCtr, freeCtr := s.freeCtr + 1 }) ∧
  (∀ (s : State) (sel : Sel) (i : Nat) (v : ColorWord), s.busy = true → i < palSize →
    outsideStep (.palStore sel i v) s = .next { s with touched := true } ∧
    outsideStep (.palLoad sel i) s =
      .next { s with touched := true, hostData := Config.freeValue s.freeCtr, freeCtr := s.freeCtr + 1 }) ∧
  (∀ (pick : Option Nat) (s : State), s.busy = true → s.touched = false →
    (∀ f, pdeStep pick s = .fault f → pdeStep pick { s with touched := true } = .fault f) ∧
    (∀ u, pdeStep pick s = .next u → u.busy = true →
      pdeStep pick { s with touched := true } = .next { u with touched := true }) ∧
    (∀ u, pdeStep pick s = .next u → u.busy = false →
      ∃ m, pdeStep pick { s with touched := true } = .next m ∧ sameButOutput (outBytes s) u m ∧
        m.res.count = (Config.freeValue s.freeCtr).setWidth 32 ∧
        m.res.maxDelta = Config.freeValue (s.freeCtr + 1) ∧
        (∀ k, k < outBytes s →
          readByte m.mem .out k = some ((Config.freeValue (s.freeCtr + 2 + k)).setWidth 8)) ∧
        m.freeCtr = s.freeCtr + 2 + outBytes s))

/-- A host store with BUSY = 0 to a byte of IMG_A, IMG_B or OUT, or to an entry of PAL_A or PAL_B, writes that cell and no
other, and a load then reads it back; a load of a cell that nothing has written is refused (`20_memory.md` R53, R54,
`93_implementation_defined.md` I9; log entry 13). -/
def Obligations.IdleStoreThenLoad : Prop :=
  (∀ (s : State) (sp : ByteSpace) (off : Nat) (v : Byte) (rest : List Event), s.busy = false → off < spaceSize sp →
    s.inbox = .store sp off v :: .load sp off :: rest →
    ∃ t, runSteps 2 s = .next t ∧ t.hostData = v.setWidth 64 ∧ t.inbox = rest ∧
      (∀ sp' off', readByte t.mem sp' off' =
        if sp' = sp ∧ off' = off then some v else readByte s.mem sp' off') ∧
      (∀ sel i, cellGet (palOf t.mem sel) i = cellGet (palOf s.mem sel) i) ∧
      (∀ r, regValue t r = regValue s r) ∧ t.engine = s.engine ∧ t.scan = s.scan) ∧
  (∀ (s : State) (sel : Sel) (i : Nat) (v : ColorWord) (rest : List Event), s.busy = false → i < palSize →
    s.inbox = .palStore sel i v :: .palLoad sel i :: rest →
    ∃ t, runSteps 2 s = .next t ∧ t.hostData = v.setWidth 64 ∧ t.inbox = rest ∧
      (∀ sel' i', cellGet (palOf t.mem sel') i' =
        if sel' = sel ∧ i' = i then some v else cellGet (palOf s.mem sel') i') ∧
      (∀ sp off, readByte t.mem sp off = readByte s.mem sp off) ∧
      (∀ r, regValue t r = regValue s r) ∧ t.engine = s.engine ∧ t.scan = s.scan) ∧
  (∀ (s : State) (sp : ByteSpace) (off : Nat) (rest : List Event), s.busy = false → off < spaceSize sp →
    readByte s.mem sp off = none → s.inbox = .load sp off :: rest → step s = .refused .hostReadUnwritten) ∧
  (∀ (s : State) (sel : Sel) (i : Nat) (rest : List Event), s.busy = false → i < palSize →
    cellGet (palOf s.mem sel) i = none → s.inbox = .palLoad sel i :: rest → step s = .refused .hostReadUnwritten)

/-- What each register shows, field by field with its reserved bits 0, in every state: the constants, STATUS with the ERR and
ERRINFO numbers of the tables, the options, the operands with the derived BPP, the results with the CLASS codes, LANES
(`10_state.md` R12 to R16, R18 to R35, `60_exceptions.md` R201, R204, R205, `43_compare.md` R172). A read of a register 0x00
to 0x1A with BUSY = 0 gives the host that value and changes nothing in the PDE (`10_state.md` R11). A WAIT lets the PDE
move while BUSY = 1 and stays, and with BUSY = 0 reads STATUS and is over (`30_encoding.md` R97; the one read at its end
is the model's form of the repeated ones, log entry 16). -/
def Obligations.IdleReadsAndWait : Prop :=
  (∀ s : State,
    regValue s .id = 0x0000000050444501#64 ∧ regValue s .cmd = 0#64 ∧
    (∃ row ∈ errorTable, row.1 = s.status.err) ∧
    (∀ row ∈ errorTable, row.1 = s.status.err → regValue s .status =
      0#52 ++ row.2.2 ++ 0#1 ++ row.2.1 ++ BitVec.ofBool s.status.dropped ++ BitVec.ofBool s.status.outValid ++
        BitVec.ofBool s.status.done ++ BitVec.ofBool s.busy) ∧
    regValue s .flags = 0#60 ++ BitVec.ofBool s.opts.flags.altValid ++ BitVec.ofBool s.opts.flags.outputEn ++
      BitVec.ofBool s.opts.flags.diffMask ++ BitVec.ofBool s.opts.flags.includeAa ∧
    regValue s .threshold = s.opts.threshold ∧ regValue s .alpha = s.opts.alpha ∧
    regValue s .aaColor = 0#32 ++ s.opts.aaColor ∧ regValue s .diffColor = 0#32 ++ s.opts.diffColor ∧
    regValue s .diffColorAlt = 0#32 ++ s.opts.diffColorAlt ∧
    regValue s .aDims = 0#32 ++ s.descA.h ++ s.descA.w ∧ regValue s .bDims = 0#32 ++ s.descB.h ++ s.descB.w ∧
    regValue s .aLayout = 0#20 ++ BitVec.ofNat 4 (bppTable.getD s.descA.model.toNat 0) ++ 0#4 ++ s.descA.model ++
      0#8 ++ s.descA.stride ∧
    regValue s .bLayout = 0#20 ++ BitVec.ofNat 4 (bppTable.getD s.descB.model.toNat 0) ++ 0#4 ++ s.descB.model ++
      0#8 ++ s.descB.stride ∧
    regValue s .aLen = 0#24 ++ s.descA.len ∧ regValue s .bLen = 0#24 ++ s.descB.len ∧
    regValue s .ptP = 0#32 ++ s.ptP.y ++ s.ptP.x ∧ regValue s .ptQ = 0#32 ++ s.ptQ.y ++ s.ptQ.x ∧
    regValue s .colin = 0#32 ++ s.colin ∧ regValue s .count = 0#32 ++ s.res.count ∧
    regValue s .res0 = s.res.res0 ∧ regValue s .res1 = s.res.res1 ∧ regValue s .res2 = s.res.res2 ∧
    regValue s .resc = 0#32 ++ s.res.resc ∧
    (∀ row ∈ classTable, row.1 = s.res.resClass →
      regValue s .resb = 0#60 ++ BitVec.ofBool s.res.resWr ++ row.2 ++ BitVec.ofBool s.res.resBool) ∧
    regValue s .resp = 0#24 ++ s.res.resp ∧ regValue s .maxDelta = s.res.maxDelta ∧
    regValue s .lanes = 0#48 ++ BitVec.ofNat 16 Config.nLanes) ∧
  (∀ (s : State) (n : Nat) (r : Reg) (rest : List Event), s.busy = false → regOfNumber n = some r →
    s.inbox = .regRead (8 * n) 8 :: rest →
    step s = .next { s with inbox := rest, hostData := regValue s r }) ∧
  (∀ (s : State) (rest : List Event), s.inbox = .wait :: rest →
    (s.busy = true → step s = pdeStep none s) ∧
    (s.busy = false → step s = .next { s with inbox := rest, hostData := regValue s .status }))
end

