-- ==== Sys2Proof/Laws/Memory.lean ====
section
/-! SUPPORT. The laws of the address spaces and the lane table: read after write, the frame of a write, and the
canonical form, which every memory operation keeps. -/

namespace Sys2Proof.Machine

/-! ### One cell -/

@[simp] theorem cellGet_nil {α : Type} (k : Nat) : cellGet ([] : List (Nat × α)) k = none := rfl

theorem cellGet_cons {α : Type} (k : Nat) (v : α) (m : List (Nat × α)) (key : Nat) :
    cellGet ((k, v) :: m) key = if k = key then some v else cellGet m key := rfl

theorem cellsWithin_cons {α : Type} (size low k : Nat) (v : α) (m : List (Nat × α)) :
    cellsWithin size low ((k, v) :: m) = true ↔ low ≤ k ∧ k < size ∧ cellsWithin size (k + 1) m = true := by
  simp [cellsWithin, and_assoc]

/-- A canonical table from a key on is canonical from every smaller key on. -/
theorem cellsWithin_mono {α : Type} {size low low' : Nat} {m : List (Nat × α)} (h : low' ≤ low)
    (hm : cellsWithin size low m = true) : cellsWithin size low' m = true := by
  cases m with
  | nil => rfl
  | cons c m =>
    obtain ⟨h1, h2, h3⟩ := (cellsWithin_cons ..).1 hm
    exact (cellsWithin_cons ..).2 ⟨h.trans h1, h2, h3⟩

/-- No key below `low` is listed. -/
theorem cellGet_below {α : Type} {size low key : Nat} {m : List (Nat × α)}
    (hm : cellsWithin size low m = true) (h : key < low) : cellGet m key = none := by
  induction m generalizing low with
  | nil => rfl
  | cons c m ih =>
    obtain ⟨h1, _, h3⟩ := (cellsWithin_cons ..).1 hm
    rw [cellGet_cons, if_neg (by omega), ih h3 (by omega)]

/-- A read after a write to the same key gives what was written. -/
@[simp] theorem cellGet_cellPut_same {α : Type} (m : List (Nat × α)) (key : Nat) (v : α) :
    cellGet (cellPut m key v) key = some v := by
  induction m with
  | nil => simp [cellPut, cellGet]
  | cons c m ih =>
    obtain ⟨k, u⟩ := c
    unfold cellPut
    split
    · simp [cellGet]
    · split
      · simp [cellGet]
      · rw [cellGet_cons, if_neg (by omega), ih]

/-- A write leaves every other key alone. -/
theorem cellGet_cellPut_other {α : Type} (m : List (Nat × α)) {key other : Nat} (v : α) (h : other ≠ key) :
    cellGet (cellPut m key v) other = cellGet m other := by
  induction m with
  | nil => simp [cellPut, cellGet, Ne.symm h]
  | cons c m ih =>
    obtain ⟨k, u⟩ := c
    unfold cellPut
    split
    · rw [cellGet_cons, if_neg (Ne.symm h)]
    · split
      · subst_vars
        rw [cellGet_cons, cellGet_cons, if_neg (Ne.symm h), if_neg (Ne.symm h)]
      · rw [cellGet_cons, cellGet_cons, ih]

/-- Reading any key after a write. -/
theorem cellGet_cellPut {α : Type} (m : List (Nat × α)) (key other : Nat) (v : α) :
    cellGet (cellPut m key v) other = if other = key then some v else cellGet m other := by
  split
  · rename_i h; rw [h]; exact cellGet_cellPut_same m key v
  · exact cellGet_cellPut_other m v ‹_›

/-- A write within the size keeps the canonical form. -/
theorem cellsWithin_cellPut {α : Type} {size low key : Nat} {m : List (Nat × α)} (v : α)
    (hm : cellsWithin size low m = true) (hl : low ≤ key) (hk : key < size) :
    cellsWithin size low (cellPut m key v) = true := by
  induction m generalizing low with
  | nil => exact (cellsWithin_cons ..).2 ⟨hl, hk, rfl⟩
  | cons c m ih =>
    obtain ⟨k, u⟩ := c
    obtain ⟨h1, h2, h3⟩ := (cellsWithin_cons ..).1 hm
    unfold cellPut
    split
    · exact (cellsWithin_cons ..).2 ⟨hl, hk, (cellsWithin_cons ..).2 ⟨by omega, h2, h3⟩⟩
    · split
      · subst_vars; exact (cellsWithin_cons ..).2 ⟨hl, hk, h3⟩
      · exact (cellsWithin_cons ..).2 ⟨h1, h2, ih h3 (by omega)⟩

/-- An erasure keeps the canonical form. -/
theorem cellsWithin_cellErase {α : Type} {size low : Nat} {m : List (Nat × α)} (key : Nat)
    (hm : cellsWithin size low m = true) : cellsWithin size low (cellErase m key) = true := by
  induction m generalizing low with
  | nil => rfl
  | cons c m ih =>
    obtain ⟨k, u⟩ := c
    obtain ⟨h1, h2, h3⟩ := (cellsWithin_cons ..).1 hm
    unfold cellErase
    split
    · exact cellsWithin_mono (by omega) h3
    · exact (cellsWithin_cons ..).2 ⟨h1, h2, ih h3⟩

/-- Reading any key after an erasure from a canonical table. -/
theorem cellGet_cellErase {α : Type} {size low : Nat} {m : List (Nat × α)} (key other : Nat)
    (hm : cellsWithin size low m = true) :
    cellGet (cellErase m key) other = if other = key then none else cellGet m other := by
  induction m generalizing low with
  | nil => simp [cellErase]
  | cons c m ih =>
    obtain ⟨k, u⟩ := c
    obtain ⟨h1, h2, h3⟩ := (cellsWithin_cons ..).1 hm
    unfold cellErase
    split
    · subst_vars
      split
      · subst_vars; exact cellGet_below h3 (by omega)
      · rw [cellGet_cons, if_neg (Ne.symm ‹_›)]
    · rw [cellGet_cons, cellGet_cons, ih h3]
      split <;> split <;> first | rfl | omega

/-! ### Runs of bytes -/

/-- The bytes `writeBytes` stores to: what is read anywhere after it. -/
theorem cellGet_writeBytes (m : Memory) (off : Nat) (vs : List Byte) (k : Nat) :
    cellGet (writeBytes m off vs) k =
      if off ≤ k ∧ k < off + vs.length then vs[k - off]? else cellGet m k := by
  induction vs generalizing m off with
  | nil => rw [if_neg (by simp only [List.length_nil]; omega)]; rfl
  | cons v vs ih =>
    rw [writeBytes, ih, cellGet_cellPut]
    simp only [List.length_cons]
    rcases Nat.lt_trichotomy k off with h | h | h
    · rw [if_neg (by omega), if_neg (by omega), if_neg (by omega)]
    · subst h
      rw [if_neg (by omega), if_pos rfl, if_pos (by omega)]
      simp
    · have hk : k - off = (k - (off + 1)) + 1 := by omega
      by_cases h2 : k < off + 1 + vs.length
      · rw [if_pos (by omega), if_pos (by omega), hk]; simp
      · rw [if_neg (by omega), if_neg (by omega), if_neg (by omega)]

/-- A byte outside the stored bytes reads as before. -/
theorem cellGet_writeBytes_outside (m : Memory) (off : Nat) (vs : List Byte) {k : Nat}
    (h : k < off ∨ off + vs.length ≤ k) : cellGet (writeBytes m off vs) k = cellGet m k := by
  rw [cellGet_writeBytes, if_neg (by omega)]

/-- `writeBytes` within the size keeps the canonical form. -/
theorem writeBytes_wf {size : Nat} (m : Memory) (off : Nat) (vs : List Byte)
    (hm : Memory.wf size m = true) (h : off + vs.length ≤ size) :
    Memory.wf size (writeBytes m off vs) = true := by
  induction vs generalizing m off with
  | nil => exact hm
  | cons v vs ih =>
    rw [List.length_cons] at h
    exact ih _ _ (cellsWithin_cellPut v hm (Nat.zero_le _) (by omega)) (by omega)

/-! ### Fills -/

theorem cellGet_append {α : Type} (m n : List (Nat × α)) (k : Nat) :
    cellGet (m ++ n) k = (cellGet m k).or (cellGet n k) := by
  induction m with
  | nil => simp
  | cons c m ih =>
    obtain ⟨key, v⟩ := c
    rw [List.cons_append, cellGet_cons, cellGet_cons, ih]
    split <;> simp

theorem cellGet_rangeMap {α : Type} (low n : Nat) (f : Nat → α) (k : Nat) :
    cellGet ((List.range' low n).map (fun j => (j, f j))) k =
      if low ≤ k ∧ k < low + n then some (f k) else none := by
  induction n generalizing low with
  | zero => rw [if_neg (by omega)]; rfl
  | succ n ih =>
    rw [List.range'_succ, List.map_cons, cellGet_cons, ih]
    by_cases h : low = k
    · subst h; rw [if_pos rfl, if_pos (by omega)]
    · rw [if_neg h]
      by_cases h2 : low + 1 ≤ k ∧ k < low + 1 + n
      · rw [if_pos h2, if_pos (by omega)]
      · rw [if_neg h2, if_neg (by omega)]

theorem cellGet_filterFrom {α : Type} (m : List (Nat × α)) (n k : Nat) (h : n ≤ k) :
    cellGet (m.filter (fun c => decide (n ≤ c.1))) k = cellGet m k := by
  induction m with
  | nil => rfl
  | cons c m ih =>
    obtain ⟨key, v⟩ := c
    rw [List.filter_cons]
    split
    · rw [cellGet_cons, cellGet_cons, ih]
    · rename_i hk
      simp only [decide_eq_true_eq] at hk
      rw [ih, cellGet_cons, if_neg (by omega)]

theorem cellGet_filterFrom_below {α : Type} (m : List (Nat × α)) (n k : Nat) (h : k < n) :
    cellGet (m.filter (fun c => decide (n ≤ c.1))) k = none := by
  induction m with
  | nil => rfl
  | cons c m ih =>
    obtain ⟨key, v⟩ := c
    rw [List.filter_cons]
    split
    · rename_i hk
      simp only [decide_eq_true_eq] at hk
      rw [cellGet_cons, if_neg (by omega), ih]
    · exact ih

/-- What is read anywhere after a fill. -/
theorem cellGet_fillBytes (m : Memory) (n : Nat) (f : Nat → Byte) (k : Nat) :
    cellGet (fillBytes m n f) k = if k < n then some (f k) else cellGet m k := by
  unfold fillBytes
  rw [cellGet_append, List.range_eq_range', cellGet_rangeMap]
  split
  · rw [if_pos (by omega)]; rfl
  · rw [if_neg (by omega), Option.none_or, cellGet_filterFrom _ _ _ (by omega)]

theorem cellsWithin_filterFrom {α : Type} {size low n : Nat} {m : List (Nat × α)}
    (hm : cellsWithin size low m = true) :
    cellsWithin size (max low n) (m.filter (fun c => decide (n ≤ c.1))) = true := by
  induction m generalizing low with
  | nil => rfl
  | cons c m ih =>
    obtain ⟨k, v⟩ := c
    obtain ⟨h1, h2, h3⟩ := (cellsWithin_cons ..).1 hm
    rw [List.filter_cons]
    split
    · rename_i hk
      simp only [decide_eq_true_eq] at hk
      have h4 := ih h3
      rw [Nat.max_eq_left (by omega)] at h4
      exact (cellsWithin_cons ..).2 ⟨by omega, h2, h4⟩
    · exact cellsWithin_mono (by omega) (ih h3)

theorem cellsWithin_rangeMap_append {α : Type} {size low n : Nat} (f : Nat → α) {rest : List (Nat × α)}
    (hn : low + n ≤ size) (hr : cellsWithin size (low + n) rest = true) :
    cellsWithin size low ((List.range' low n).map (fun j => (j, f j)) ++ rest) = true := by
  induction n generalizing low with
  | zero => simpa using hr
  | succ n ih =>
    rw [List.range'_succ, List.map_cons, List.cons_append]
    exact (cellsWithin_cons ..).2
      ⟨Nat.le_refl _, by omega, ih (by omega) (by rw [show low + 1 + n = low + (n + 1) by omega]; exact hr)⟩

/-- A fill within the size keeps the canonical form. -/
theorem fillBytes_wf {size : Nat} (m : Memory) (n : Nat) (f : Nat → Byte)
    (hm : Memory.wf size m = true) (h : n ≤ size) : Memory.wf size (fillBytes m n f) = true := by
  unfold Memory.wf fillBytes
  rw [List.range_eq_range']
  refine cellsWithin_rangeMap_append (low := 0) f (by omega) ?_
  have h2 := cellsWithin_filterFrom (n := n) hm
  rw [Nat.zero_max] at h2
  rw [Nat.zero_add]
  exact h2

/-! ### The lane table (`10_state.md` R36) -/

/-- Reading any lane after a write. -/
theorem laneGet_lanePut {size low : Nat} {t : LaneTable} (ht : cellsWithin size low t = true) (i j : Nat) (l : Lane) :
    laneGet (lanePut t i l) j = if j = i then l else laneGet t j := by
  unfold laneGet lanePut
  split
  · subst_vars; rw [cellGet_cellErase i j ht]; split <;> rfl
  · rw [cellGet_cellPut]; split <;> rfl

/-- `isLane` says i < N_LANES. -/
theorem isLane_iff (i : Nat) : isLane i = true ↔ i < Config.nLanes := by
  unfold isLane Config.nLanes
  cases i with
  | zero => simp
  | succ k => simp

theorem mem_cellPut {α : Type} {m : List (Nat × α)} {key : Nat} {v : α} {e : Nat × α}
    (h : e ∈ cellPut m key v) : e = (key, v) ∨ e ∈ m := by
  induction m with
  | nil => simpa [cellPut] using h
  | cons c m ih =>
    obtain ⟨k, u⟩ := c
    unfold cellPut at h
    split at h
    · simpa [or_assoc] using h
    · split at h
      · rcases List.mem_cons.1 h with h | h
        · exact .inl h
        · exact .inr (List.mem_cons_of_mem _ h)
      · rcases List.mem_cons.1 h with h | h
        · exact .inr (h ▸ List.mem_cons_self ..)
        · rcases ih h with h | h
          · exact .inl h
          · exact .inr (List.mem_cons_of_mem _ h)

theorem mem_cellErase {α : Type} {m : List (Nat × α)} {key : Nat} {e : Nat × α}
    (h : e ∈ cellErase m key) : e ∈ m := by
  induction m with
  | nil => simp [cellErase] at h
  | cons c m ih =>
    obtain ⟨k, u⟩ := c
    unfold cellErase at h
    split at h
    · exact List.mem_cons_of_mem _ h
    · rcases List.mem_cons.1 h with h | h
      · exact h ▸ List.mem_cons_self ..
      · exact List.mem_cons_of_mem _ (ih h)

/-- A write of a lane keeps the lane table canonical. -/
theorem lanePut_wf {t : LaneTable} {i : Nat} (l : Lane) (ht : LaneTable.wf t = true) (hi : isLane i = true) :
    LaneTable.wf (lanePut t i l) = true := by
  unfold LaneTable.wf at *
  rw [Bool.and_eq_true, List.all_eq_true] at *
  obtain ⟨h1, h2⟩ := ht
  unfold lanePut
  split
  · exact ⟨cellsWithin_cellErase i h1, fun e he => h2 e (mem_cellErase he)⟩
  · refine ⟨cellsWithin_cellPut l h1 (Nat.zero_le _) ((isLane_iff i).1 hi), fun e he => ?_⟩
    rcases mem_cellPut he with he | he
    · subst he; simpa using ‹l ≠ Lane.clear›
    · exact h2 e he

/-! ### The spaces -/

@[simp] theorem spaceOf_setSpace_same (m : Spaces) (sp : ByteSpace) (b : Memory) :
    spaceOf (setSpace m sp b) sp = b := by cases sp <;> rfl

theorem spaceOf_setSpace_other (m : Spaces) {sp sp' : ByteSpace} (b : Memory) (h : sp' ≠ sp) :
    spaceOf (setSpace m sp b) sp' = spaceOf m sp' := by
  cases sp <;> cases sp' <;> first | rfl | exact absurd rfl h

@[simp] theorem palOf_setSpace (m : Spaces) (sp : ByteSpace) (b : Memory) (sel : Sel) :
    palOf (setSpace m sp b) sel = palOf m sel := by cases sp <;> cases sel <;> rfl

@[simp] theorem spaceOf_setPal (m : Spaces) (sel : Sel) (p : PalRam) (sp : ByteSpace) :
    spaceOf (setPal m sel p) sp = spaceOf m sp := by cases sel <;> cases sp <;> rfl

@[simp] theorem palOf_setPal_same (m : Spaces) (sel : Sel) (p : PalRam) :
    palOf (setPal m sel p) sel = p := by cases sel <;> rfl

theorem palOf_setPal_other (m : Spaces) {sel sel' : Sel} (p : PalRam) (h : sel' ≠ sel) :
    palOf (setPal m sel p) sel' = palOf m sel' := by
  cases sel <;> cases sel' <;> first | rfl | exact absurd rfl h

/-- The spaces after reset have the canonical form. -/
theorem reset_spaces_wf (sp : ByteSpace) : Memory.wf (spaceSize sp) (spaceOf State.reset.mem sp) = true := by
  cases sp <;> rfl

/-- The palettes after reset have the canonical form. -/
theorem reset_palettes_wf (sel : Sel) : Memory.wf palSize (palOf State.reset.mem sel) = true := by
  cases sel <;> rfl

/-- 4·W·H is within OUT (`20_memory.md` R79). -/
theorem outBytes_le_outSize (s : State) : outBytes s ≤ outSize := by
  have hw := s.descA.w.isLt
  have hh := s.descA.h.isLt
  have h : s.descA.w.toNat * s.descA.h.toNat ≤ 2 ^ 16 * 2 ^ 16 :=
    Nat.mul_le_mul (Nat.le_of_lt hw) (Nat.le_of_lt hh)
  unfold outBytes outSize
  omega

end Sys2Proof.Machine
end

