-- ==== Sys2Proof/Laws/State.lean ====
section
/-! SUPPORT. One lemma per field per update of the state, so that no later proof unfolds a record update. -/

namespace Sys2Proof.Machine

/-! ### `accept` -/

@[simp] theorem accept_opts (w : CmdWord) (s : State) : (accept w s).opts = s.opts := rfl
@[simp] theorem accept_descA (w : CmdWord) (s : State) : (accept w s).descA = s.descA := rfl
@[simp] theorem accept_descB (w : CmdWord) (s : State) : (accept w s).descB = s.descB := rfl
@[simp] theorem accept_ptP (w : CmdWord) (s : State) : (accept w s).ptP = s.ptP := rfl
@[simp] theorem accept_ptQ (w : CmdWord) (s : State) : (accept w s).ptQ = s.ptQ := rfl
@[simp] theorem accept_colin (w : CmdWord) (s : State) : (accept w s).colin = s.colin := rfl
@[simp] theorem accept_res (w : CmdWord) (s : State) : (accept w s).res = Results.clear := rfl
@[simp] theorem accept_status (w : CmdWord) (s : State) : (accept w s).status = Status.clear := rfl
@[simp] theorem accept_engine (w : CmdWord) (s : State) : (accept w s).engine = .accepted w := rfl
@[simp] theorem accept_scan (w : CmdWord) (s : State) : (accept w s).scan = Scan.clear := rfl
@[simp] theorem accept_mem (w : CmdWord) (s : State) : (accept w s).mem = s.mem := rfl
@[simp] theorem accept_touched (w : CmdWord) (s : State) : (accept w s).touched = false := rfl
@[simp] theorem accept_freeCtr (w : CmdWord) (s : State) : (accept w s).freeCtr = s.freeCtr := rfl
@[simp] theorem accept_hostData (w : CmdWord) (s : State) : (accept w s).hostData = s.hostData := rfl
@[simp] theorem accept_inbox (w : CmdWord) (s : State) : (accept w s).inbox = s.inbox := rfl

/-! ### `finish` -/

@[simp] theorem finish_opts (e : Option CmdError) (s : State) : (finish e s).opts = s.opts := rfl
@[simp] theorem finish_descA (e : Option CmdError) (s : State) : (finish e s).descA = s.descA := rfl
@[simp] theorem finish_descB (e : Option CmdError) (s : State) : (finish e s).descB = s.descB := rfl
@[simp] theorem finish_ptP (e : Option CmdError) (s : State) : (finish e s).ptP = s.ptP := rfl
@[simp] theorem finish_ptQ (e : Option CmdError) (s : State) : (finish e s).ptQ = s.ptQ := rfl
@[simp] theorem finish_colin (e : Option CmdError) (s : State) : (finish e s).colin = s.colin := rfl
@[simp] theorem finish_res (e : Option CmdError) (s : State) : (finish e s).res = s.res := rfl
@[simp] theorem finish_status (e : Option CmdError) (s : State) : (finish e s).status = { s.status with done := true, err := e } := rfl
@[simp] theorem finish_engine (e : Option CmdError) (s : State) : (finish e s).engine = .idle := rfl
@[simp] theorem finish_scan (e : Option CmdError) (s : State) : (finish e s).scan = s.scan := rfl
@[simp] theorem finish_mem (e : Option CmdError) (s : State) : (finish e s).mem = s.mem := rfl
@[simp] theorem finish_touched (e : Option CmdError) (s : State) : (finish e s).touched = s.touched := rfl
@[simp] theorem finish_freeCtr (e : Option CmdError) (s : State) : (finish e s).freeCtr = s.freeCtr := rfl
@[simp] theorem finish_hostData (e : Option CmdError) (s : State) : (finish e s).hostData = s.hostData := rfl
@[simp] theorem finish_inbox (e : Option CmdError) (s : State) : (finish e s).inbox = s.inbox := rfl

/-! ### `scramble` -/

@[simp] theorem scramble_opts (s : State) : (scramble s).opts = s.opts := rfl
@[simp] theorem scramble_descA (s : State) : (scramble s).descA = s.descA := rfl
@[simp] theorem scramble_descB (s : State) : (scramble s).descB = s.descB := rfl
@[simp] theorem scramble_ptP (s : State) : (scramble s).ptP = s.ptP := rfl
@[simp] theorem scramble_ptQ (s : State) : (scramble s).ptQ = s.ptQ := rfl
@[simp] theorem scramble_colin (s : State) : (scramble s).colin = s.colin := rfl
@[simp] theorem scramble_status (s : State) : (scramble s).status = s.status := rfl
@[simp] theorem scramble_engine (s : State) : (scramble s).engine = s.engine := rfl
@[simp] theorem scramble_scan (s : State) : (scramble s).scan = s.scan := rfl
@[simp] theorem scramble_touched (s : State) : (scramble s).touched = false := rfl
@[simp] theorem scramble_freeCtr (s : State) : (scramble s).freeCtr = s.freeCtr + 2 + outBytes s := rfl
@[simp] theorem scramble_hostData (s : State) : (scramble s).hostData = s.hostData := rfl
@[simp] theorem scramble_inbox (s : State) : (scramble s).inbox = s.inbox := rfl

/-! ### `withMaxDelta` -/

@[simp] theorem withMaxDelta_opts (s : State) : (withMaxDelta s).opts = s.opts := rfl
@[simp] theorem withMaxDelta_descA (s : State) : (withMaxDelta s).descA = s.descA := rfl
@[simp] theorem withMaxDelta_descB (s : State) : (withMaxDelta s).descB = s.descB := rfl
@[simp] theorem withMaxDelta_ptP (s : State) : (withMaxDelta s).ptP = s.ptP := rfl
@[simp] theorem withMaxDelta_ptQ (s : State) : (withMaxDelta s).ptQ = s.ptQ := rfl
@[simp] theorem withMaxDelta_colin (s : State) : (withMaxDelta s).colin = s.colin := rfl
@[simp] theorem withMaxDelta_res (s : State) : (withMaxDelta s).res = { s.res with maxDelta := maxDeltaOf s.opts.threshold } := rfl
@[simp] theorem withMaxDelta_status (s : State) : (withMaxDelta s).status = s.status := rfl
@[simp] theorem withMaxDelta_engine (s : State) : (withMaxDelta s).engine = s.engine := rfl
@[simp] theorem withMaxDelta_scan (s : State) : (withMaxDelta s).scan = s.scan := rfl
@[simp] theorem withMaxDelta_mem (s : State) : (withMaxDelta s).mem = s.mem := rfl
@[simp] theorem withMaxDelta_touched (s : State) : (withMaxDelta s).touched = s.touched := rfl
@[simp] theorem withMaxDelta_freeCtr (s : State) : (withMaxDelta s).freeCtr = s.freeCtr := rfl
@[simp] theorem withMaxDelta_hostData (s : State) : (withMaxDelta s).hostData = s.hostData := rfl
@[simp] theorem withMaxDelta_inbox (s : State) : (withMaxDelta s).inbox = s.inbox := rfl

/-! ### `pixelResult` -/

@[simp] theorem pixelResult_opts (v : Verdict) (s : State) : (pixelResult v s).opts = s.opts := rfl
@[simp] theorem pixelResult_descA (v : Verdict) (s : State) : (pixelResult v s).descA = s.descA := rfl
@[simp] theorem pixelResult_descB (v : Verdict) (s : State) : (pixelResult v s).descB = s.descB := rfl
@[simp] theorem pixelResult_ptP (v : Verdict) (s : State) : (pixelResult v s).ptP = s.ptP := rfl
@[simp] theorem pixelResult_ptQ (v : Verdict) (s : State) : (pixelResult v s).ptQ = s.ptQ := rfl
@[simp] theorem pixelResult_colin (v : Verdict) (s : State) : (pixelResult v s).colin = s.colin := rfl
@[simp] theorem pixelResult_status (v : Verdict) (s : State) : (pixelResult v s).status = s.status := rfl
@[simp] theorem pixelResult_engine (v : Verdict) (s : State) : (pixelResult v s).engine = s.engine := rfl
@[simp] theorem pixelResult_scan (v : Verdict) (s : State) : (pixelResult v s).scan = s.scan := rfl
@[simp] theorem pixelResult_mem (v : Verdict) (s : State) : (pixelResult v s).mem = s.mem := rfl
@[simp] theorem pixelResult_touched (v : Verdict) (s : State) : (pixelResult v s).touched = s.touched := rfl
@[simp] theorem pixelResult_freeCtr (v : Verdict) (s : State) : (pixelResult v s).freeCtr = s.freeCtr := rfl
@[simp] theorem pixelResult_hostData (v : Verdict) (s : State) : (pixelResult v s).hostData = s.hostData := rfl
@[simp] theorem pixelResult_inbox (v : Verdict) (s : State) : (pixelResult v s).inbox = s.inbox := rfl

/-! ### `outWrite` -/

@[simp] theorem outWrite_opts (s : State) (p : Point) (c : Color) : (outWrite s p c).opts = s.opts := rfl
@[simp] theorem outWrite_descA (s : State) (p : Point) (c : Color) : (outWrite s p c).descA = s.descA := rfl
@[simp] theorem outWrite_descB (s : State) (p : Point) (c : Color) : (outWrite s p c).descB = s.descB := rfl
@[simp] theorem outWrite_ptP (s : State) (p : Point) (c : Color) : (outWrite s p c).ptP = s.ptP := rfl
@[simp] theorem outWrite_ptQ (s : State) (p : Point) (c : Color) : (outWrite s p c).ptQ = s.ptQ := rfl
@[simp] theorem outWrite_colin (s : State) (p : Point) (c : Color) : (outWrite s p c).colin = s.colin := rfl
@[simp] theorem outWrite_res (s : State) (p : Point) (c : Color) : (outWrite s p c).res = s.res := rfl
@[simp] theorem outWrite_status (s : State) (p : Point) (c : Color) : (outWrite s p c).status = s.status := rfl
@[simp] theorem outWrite_engine (s : State) (p : Point) (c : Color) : (outWrite s p c).engine = s.engine := rfl
@[simp] theorem outWrite_scan (s : State) (p : Point) (c : Color) : (outWrite s p c).scan = s.scan := rfl
@[simp] theorem outWrite_mem (s : State) (p : Point) (c : Color) : (outWrite s p c).mem = { s.mem with out := writeBytes s.mem.out (outOffset s p) (colorBytes c) } := rfl
@[simp] theorem outWrite_touched (s : State) (p : Point) (c : Color) : (outWrite s p c).touched = s.touched := rfl
@[simp] theorem outWrite_freeCtr (s : State) (p : Point) (c : Color) : (outWrite s p c).freeCtr = s.freeCtr := rfl
@[simp] theorem outWrite_hostData (s : State) (p : Point) (c : Color) : (outWrite s p c).hostData = s.hostData := rfl
@[simp] theorem outWrite_inbox (s : State) (p : Point) (c : Color) : (outWrite s p c).inbox = s.inbox := rfl

/-! ### `setLane` -/

@[simp] theorem setLane_opts (s : State) (i : Nat) (l : Lane) : (setLane s i l).opts = s.opts := rfl
@[simp] theorem setLane_descA (s : State) (i : Nat) (l : Lane) : (setLane s i l).descA = s.descA := rfl
@[simp] theorem setLane_descB (s : State) (i : Nat) (l : Lane) : (setLane s i l).descB = s.descB := rfl
@[simp] theorem setLane_ptP (s : State) (i : Nat) (l : Lane) : (setLane s i l).ptP = s.ptP := rfl
@[simp] theorem setLane_ptQ (s : State) (i : Nat) (l : Lane) : (setLane s i l).ptQ = s.ptQ := rfl
@[simp] theorem setLane_colin (s : State) (i : Nat) (l : Lane) : (setLane s i l).colin = s.colin := rfl
@[simp] theorem setLane_res (s : State) (i : Nat) (l : Lane) : (setLane s i l).res = s.res := rfl
@[simp] theorem setLane_status (s : State) (i : Nat) (l : Lane) : (setLane s i l).status = s.status := rfl
@[simp] theorem setLane_engine (s : State) (i : Nat) (l : Lane) : (setLane s i l).engine = s.engine := rfl
@[simp] theorem setLane_scan (s : State) (i : Nat) (l : Lane) : (setLane s i l).scan = { s.scan with lanes := lanePut s.scan.lanes i l } := rfl
@[simp] theorem setLane_mem (s : State) (i : Nat) (l : Lane) : (setLane s i l).mem = s.mem := rfl
@[simp] theorem setLane_touched (s : State) (i : Nat) (l : Lane) : (setLane s i l).touched = s.touched := rfl
@[simp] theorem setLane_freeCtr (s : State) (i : Nat) (l : Lane) : (setLane s i l).freeCtr = s.freeCtr := rfl
@[simp] theorem setLane_hostData (s : State) (i : Nat) (l : Lane) : (setLane s i l).hostData = s.hostData := rfl
@[simp] theorem setLane_inbox (s : State) (i : Nat) (l : Lane) : (setLane s i l).inbox = s.inbox := rfl

/-! ### `dispatch` -/

@[simp] theorem dispatch_opts (s : State) (i : Nat) : (dispatch s i).opts = s.opts := rfl
@[simp] theorem dispatch_descA (s : State) (i : Nat) : (dispatch s i).descA = s.descA := rfl
@[simp] theorem dispatch_descB (s : State) (i : Nat) : (dispatch s i).descB = s.descB := rfl
@[simp] theorem dispatch_ptP (s : State) (i : Nat) : (dispatch s i).ptP = s.ptP := rfl
@[simp] theorem dispatch_ptQ (s : State) (i : Nat) : (dispatch s i).ptQ = s.ptQ := rfl
@[simp] theorem dispatch_colin (s : State) (i : Nat) : (dispatch s i).colin = s.colin := rfl
@[simp] theorem dispatch_res (s : State) (i : Nat) : (dispatch s i).res = s.res := rfl
@[simp] theorem dispatch_status (s : State) (i : Nat) : (dispatch s i).status = s.status := rfl
@[simp] theorem dispatch_engine (s : State) (i : Nat) : (dispatch s i).engine = s.engine := rfl
@[simp] theorem dispatch_mem (s : State) (i : Nat) : (dispatch s i).mem = s.mem := rfl
@[simp] theorem dispatch_touched (s : State) (i : Nat) : (dispatch s i).touched = s.touched := rfl
@[simp] theorem dispatch_freeCtr (s : State) (i : Nat) : (dispatch s i).freeCtr = s.freeCtr := rfl
@[simp] theorem dispatch_hostData (s : State) (i : Nat) : (dispatch s i).hostData = s.hostData := rfl
@[simp] theorem dispatch_inbox (s : State) (i : Nat) : (dispatch s i).inbox = s.inbox := rfl

/-! ### `retire` -/

@[simp] theorem retire_opts (s : State) (i : Nat) : (retire s i).opts = s.opts := rfl
@[simp] theorem retire_descA (s : State) (i : Nat) : (retire s i).descA = s.descA := rfl
@[simp] theorem retire_descB (s : State) (i : Nat) : (retire s i).descB = s.descB := rfl
@[simp] theorem retire_ptP (s : State) (i : Nat) : (retire s i).ptP = s.ptP := rfl
@[simp] theorem retire_ptQ (s : State) (i : Nat) : (retire s i).ptQ = s.ptQ := rfl
@[simp] theorem retire_colin (s : State) (i : Nat) : (retire s i).colin = s.colin := rfl
@[simp] theorem retire_res (s : State) (i : Nat) : (retire s i).res = s.res := rfl
@[simp] theorem retire_status (s : State) (i : Nat) : (retire s i).status = s.status := rfl
@[simp] theorem retire_engine (s : State) (i : Nat) : (retire s i).engine = s.engine := rfl
@[simp] theorem retire_mem (s : State) (i : Nat) : (retire s i).mem = s.mem := rfl
@[simp] theorem retire_touched (s : State) (i : Nat) : (retire s i).touched = s.touched := rfl
@[simp] theorem retire_freeCtr (s : State) (i : Nat) : (retire s i).freeCtr = s.freeCtr := rfl
@[simp] theorem retire_hostData (s : State) (i : Nat) : (retire s i).hostData = s.hostData := rfl
@[simp] theorem retire_inbox (s : State) (i : Nat) : (retire s i).inbox = s.inbox := rfl

/-! ### `touch` -/

@[simp] theorem touch_opts (s : State) : (touch s).opts = s.opts := rfl
@[simp] theorem touch_descA (s : State) : (touch s).descA = s.descA := rfl
@[simp] theorem touch_descB (s : State) : (touch s).descB = s.descB := rfl
@[simp] theorem touch_ptP (s : State) : (touch s).ptP = s.ptP := rfl
@[simp] theorem touch_ptQ (s : State) : (touch s).ptQ = s.ptQ := rfl
@[simp] theorem touch_colin (s : State) : (touch s).colin = s.colin := rfl
@[simp] theorem touch_res (s : State) : (touch s).res = s.res := rfl
@[simp] theorem touch_status (s : State) : (touch s).status = s.status := rfl
@[simp] theorem touch_engine (s : State) : (touch s).engine = s.engine := rfl
@[simp] theorem touch_scan (s : State) : (touch s).scan = s.scan := rfl
@[simp] theorem touch_mem (s : State) : (touch s).mem = s.mem := rfl
@[simp] theorem touch_touched (s : State) : (touch s).touched = true := rfl
@[simp] theorem touch_freeCtr (s : State) : (touch s).freeCtr = s.freeCtr := rfl
@[simp] theorem touch_hostData (s : State) : (touch s).hostData = s.hostData := rfl
@[simp] theorem touch_inbox (s : State) : (touch s).inbox = s.inbox := rfl

/-! ### `dropWrite` -/

@[simp] theorem dropWrite_opts (s : State) : (dropWrite s).opts = s.opts := rfl
@[simp] theorem dropWrite_descA (s : State) : (dropWrite s).descA = s.descA := rfl
@[simp] theorem dropWrite_descB (s : State) : (dropWrite s).descB = s.descB := rfl
@[simp] theorem dropWrite_ptP (s : State) : (dropWrite s).ptP = s.ptP := rfl
@[simp] theorem dropWrite_ptQ (s : State) : (dropWrite s).ptQ = s.ptQ := rfl
@[simp] theorem dropWrite_colin (s : State) : (dropWrite s).colin = s.colin := rfl
@[simp] theorem dropWrite_res (s : State) : (dropWrite s).res = s.res := rfl
@[simp] theorem dropWrite_status (s : State) : (dropWrite s).status = { s.status with dropped := true } := rfl
@[simp] theorem dropWrite_engine (s : State) : (dropWrite s).engine = s.engine := rfl
@[simp] theorem dropWrite_scan (s : State) : (dropWrite s).scan = s.scan := rfl
@[simp] theorem dropWrite_mem (s : State) : (dropWrite s).mem = s.mem := rfl
@[simp] theorem dropWrite_touched (s : State) : (dropWrite s).touched = s.touched := rfl
@[simp] theorem dropWrite_freeCtr (s : State) : (dropWrite s).freeCtr = s.freeCtr := rfl
@[simp] theorem dropWrite_hostData (s : State) : (dropWrite s).hostData = s.hostData := rfl
@[simp] theorem dropWrite_inbox (s : State) : (dropWrite s).inbox = s.inbox := rfl

/-! ### `readFree` -/

@[simp] theorem readFree_opts (s : State) : (readFree s).opts = s.opts := rfl
@[simp] theorem readFree_descA (s : State) : (readFree s).descA = s.descA := rfl
@[simp] theorem readFree_descB (s : State) : (readFree s).descB = s.descB := rfl
@[simp] theorem readFree_ptP (s : State) : (readFree s).ptP = s.ptP := rfl
@[simp] theorem readFree_ptQ (s : State) : (readFree s).ptQ = s.ptQ := rfl
@[simp] theorem readFree_colin (s : State) : (readFree s).colin = s.colin := rfl
@[simp] theorem readFree_res (s : State) : (readFree s).res = s.res := rfl
@[simp] theorem readFree_status (s : State) : (readFree s).status = s.status := rfl
@[simp] theorem readFree_engine (s : State) : (readFree s).engine = s.engine := rfl
@[simp] theorem readFree_scan (s : State) : (readFree s).scan = s.scan := rfl
@[simp] theorem readFree_mem (s : State) : (readFree s).mem = s.mem := rfl
@[simp] theorem readFree_touched (s : State) : (readFree s).touched = s.touched := rfl
@[simp] theorem readFree_freeCtr (s : State) : (readFree s).freeCtr = s.freeCtr + 1 := rfl
@[simp] theorem readFree_hostData (s : State) : (readFree s).hostData = Config.freeValue s.freeCtr := rfl
@[simp] theorem readFree_inbox (s : State) : (readFree s).inbox = s.inbox := rfl

/-! ### `withFetchWord` -/

@[simp] theorem withFetchWord_opts (s : State) (nbits w : Nat) : (s.withFetchWord nbits w).opts = s.opts := rfl
@[simp] theorem withFetchWord_descA (s : State) (nbits w : Nat) : (s.withFetchWord nbits w).descA = s.descA := rfl
@[simp] theorem withFetchWord_descB (s : State) (nbits w : Nat) : (s.withFetchWord nbits w).descB = s.descB := rfl
@[simp] theorem withFetchWord_ptP (s : State) (nbits w : Nat) : (s.withFetchWord nbits w).ptP = s.ptP := rfl
@[simp] theorem withFetchWord_ptQ (s : State) (nbits w : Nat) : (s.withFetchWord nbits w).ptQ = s.ptQ := rfl
@[simp] theorem withFetchWord_colin (s : State) (nbits w : Nat) : (s.withFetchWord nbits w).colin = s.colin := rfl
@[simp] theorem withFetchWord_res (s : State) (nbits w : Nat) : (s.withFetchWord nbits w).res = s.res := rfl
@[simp] theorem withFetchWord_status (s : State) (nbits w : Nat) : (s.withFetchWord nbits w).status = s.status := rfl
@[simp] theorem withFetchWord_engine (s : State) (nbits w : Nat) : (s.withFetchWord nbits w).engine = .accepted (BitVec.ofNat 32 (w % 2 ^ nbits)) := rfl
@[simp] theorem withFetchWord_scan (s : State) (nbits w : Nat) : (s.withFetchWord nbits w).scan = s.scan := rfl
@[simp] theorem withFetchWord_mem (s : State) (nbits w : Nat) : (s.withFetchWord nbits w).mem = s.mem := rfl
@[simp] theorem withFetchWord_touched (s : State) (nbits w : Nat) : (s.withFetchWord nbits w).touched = s.touched := rfl
@[simp] theorem withFetchWord_freeCtr (s : State) (nbits w : Nat) : (s.withFetchWord nbits w).freeCtr = s.freeCtr := rfl
@[simp] theorem withFetchWord_hostData (s : State) (nbits w : Nat) : (s.withFetchWord nbits w).hostData = s.hostData := rfl
@[simp] theorem withFetchWord_inbox (s : State) (nbits w : Nat) : (s.withFetchWord nbits w).inbox = [] := rfl

/-! ### `complete` -/

@[simp] theorem complete_opts (e : Option CmdError) (s : State) : (complete e s).opts = s.opts := by
  unfold complete; split <;> rfl
@[simp] theorem complete_descA (e : Option CmdError) (s : State) : (complete e s).descA = s.descA := by
  unfold complete; split <;> rfl
@[simp] theorem complete_descB (e : Option CmdError) (s : State) : (complete e s).descB = s.descB := by
  unfold complete; split <;> rfl
@[simp] theorem complete_ptP (e : Option CmdError) (s : State) : (complete e s).ptP = s.ptP := by
  unfold complete; split <;> rfl
@[simp] theorem complete_ptQ (e : Option CmdError) (s : State) : (complete e s).ptQ = s.ptQ := by
  unfold complete; split <;> rfl
@[simp] theorem complete_colin (e : Option CmdError) (s : State) : (complete e s).colin = s.colin := by
  unfold complete; split <;> rfl
@[simp] theorem complete_scan (e : Option CmdError) (s : State) : (complete e s).scan = s.scan := by
  unfold complete; split <;> rfl
@[simp] theorem complete_hostData (e : Option CmdError) (s : State) : (complete e s).hostData = s.hostData := by
  unfold complete; split <;> rfl
@[simp] theorem complete_inbox (e : Option CmdError) (s : State) : (complete e s).inbox = s.inbox := by
  unfold complete; split <;> rfl

/-! ### `zeroFill` -/

@[simp] theorem zeroFill_opts (s : State) : (zeroFill s).opts = s.opts := by
  unfold zeroFill; split <;> rfl
@[simp] theorem zeroFill_descA (s : State) : (zeroFill s).descA = s.descA := by
  unfold zeroFill; split <;> rfl
@[simp] theorem zeroFill_descB (s : State) : (zeroFill s).descB = s.descB := by
  unfold zeroFill; split <;> rfl
@[simp] theorem zeroFill_ptP (s : State) : (zeroFill s).ptP = s.ptP := by
  unfold zeroFill; split <;> rfl
@[simp] theorem zeroFill_ptQ (s : State) : (zeroFill s).ptQ = s.ptQ := by
  unfold zeroFill; split <;> rfl
@[simp] theorem zeroFill_colin (s : State) : (zeroFill s).colin = s.colin := by
  unfold zeroFill; split <;> rfl
@[simp] theorem zeroFill_res (s : State) : (zeroFill s).res = s.res := by
  unfold zeroFill; split <;> rfl
@[simp] theorem zeroFill_status (s : State) : (zeroFill s).status = s.status := by
  unfold zeroFill; split <;> rfl
@[simp] theorem zeroFill_engine (s : State) : (zeroFill s).engine = s.engine := by
  unfold zeroFill; split <;> rfl
@[simp] theorem zeroFill_scan (s : State) : (zeroFill s).scan = s.scan := by
  unfold zeroFill; split <;> rfl
@[simp] theorem zeroFill_touched (s : State) : (zeroFill s).touched = s.touched := by
  unfold zeroFill; split <;> rfl
@[simp] theorem zeroFill_freeCtr (s : State) : (zeroFill s).freeCtr = s.freeCtr := by
  unfold zeroFill; split <;> rfl
@[simp] theorem zeroFill_hostData (s : State) : (zeroFill s).hostData = s.hostData := by
  unfold zeroFill; split <;> rfl
@[simp] theorem zeroFill_inbox (s : State) : (zeroFill s).inbox = s.inbox := by
  unfold zeroFill; split <;> rfl

/-! ### `startScan` -/

@[simp] theorem startScan_opts (s : State) : (startScan s).opts = s.opts := by
  unfold startScan zeroFill; split <;> rfl
@[simp] theorem startScan_descA (s : State) : (startScan s).descA = s.descA := by
  unfold startScan zeroFill; split <;> rfl
@[simp] theorem startScan_descB (s : State) : (startScan s).descB = s.descB := by
  unfold startScan zeroFill; split <;> rfl
@[simp] theorem startScan_ptP (s : State) : (startScan s).ptP = s.ptP := by
  unfold startScan zeroFill; split <;> rfl
@[simp] theorem startScan_ptQ (s : State) : (startScan s).ptQ = s.ptQ := by
  unfold startScan zeroFill; split <;> rfl
@[simp] theorem startScan_colin (s : State) : (startScan s).colin = s.colin := by
  unfold startScan zeroFill; split <;> rfl
@[simp] theorem startScan_status (s : State) : (startScan s).status = s.status := by
  unfold startScan zeroFill; split <;> rfl
@[simp] theorem startScan_touched (s : State) : (startScan s).touched = s.touched := by
  unfold startScan zeroFill; split <;> rfl
@[simp] theorem startScan_freeCtr (s : State) : (startScan s).freeCtr = s.freeCtr := by
  unfold startScan zeroFill; split <;> rfl
@[simp] theorem startScan_hostData (s : State) : (startScan s).hostData = s.hostData := by
  unfold startScan zeroFill; split <;> rfl
@[simp] theorem startScan_inbox (s : State) : (startScan s).inbox = s.inbox := by
  unfold startScan zeroFill; split <;> rfl

/-! ### `applyVerdict` -/

@[simp] theorem applyVerdict_opts (s : State) (i : Nat) (v : Verdict) : (applyVerdict s i v).opts = s.opts := by
  unfold applyVerdict; split <;> rfl
@[simp] theorem applyVerdict_descA (s : State) (i : Nat) (v : Verdict) : (applyVerdict s i v).descA = s.descA := by
  unfold applyVerdict; split <;> rfl
@[simp] theorem applyVerdict_descB (s : State) (i : Nat) (v : Verdict) : (applyVerdict s i v).descB = s.descB := by
  unfold applyVerdict; split <;> rfl
@[simp] theorem applyVerdict_ptP (s : State) (i : Nat) (v : Verdict) : (applyVerdict s i v).ptP = s.ptP := by
  unfold applyVerdict; split <;> rfl
@[simp] theorem applyVerdict_ptQ (s : State) (i : Nat) (v : Verdict) : (applyVerdict s i v).ptQ = s.ptQ := by
  unfold applyVerdict; split <;> rfl
@[simp] theorem applyVerdict_colin (s : State) (i : Nat) (v : Verdict) : (applyVerdict s i v).colin = s.colin := by
  unfold applyVerdict; split <;> rfl
@[simp] theorem applyVerdict_res (s : State) (i : Nat) (v : Verdict) : (applyVerdict s i v).res = s.res := by
  unfold applyVerdict; split <;> rfl
@[simp] theorem applyVerdict_status (s : State) (i : Nat) (v : Verdict) : (applyVerdict s i v).status = s.status := by
  unfold applyVerdict; split <;> rfl
@[simp] theorem applyVerdict_engine (s : State) (i : Nat) (v : Verdict) : (applyVerdict s i v).engine = s.engine := by
  unfold applyVerdict; split <;> rfl
@[simp] theorem applyVerdict_touched (s : State) (i : Nat) (v : Verdict) : (applyVerdict s i v).touched = s.touched := by
  unfold applyVerdict; split <;> rfl
@[simp] theorem applyVerdict_freeCtr (s : State) (i : Nat) (v : Verdict) : (applyVerdict s i v).freeCtr = s.freeCtr := by
  unfold applyVerdict; split <;> rfl
@[simp] theorem applyVerdict_hostData (s : State) (i : Nat) (v : Verdict) : (applyVerdict s i v).hostData = s.hostData := by
  unfold applyVerdict; split <;> rfl
@[simp] theorem applyVerdict_inbox (s : State) (i : Nat) (v : Verdict) : (applyVerdict s i v).inbox = s.inbox := by
  unfold applyVerdict; split <;> rfl

/-! ### `readReg` -/

@[simp] theorem readReg_opts (n : Nat) (s : State) : (readReg n s).opts = s.opts := by
  unfold readReg readFree; split <;> (try split) <;> rfl
@[simp] theorem readReg_descA (n : Nat) (s : State) : (readReg n s).descA = s.descA := by
  unfold readReg readFree; split <;> (try split) <;> rfl
@[simp] theorem readReg_descB (n : Nat) (s : State) : (readReg n s).descB = s.descB := by
  unfold readReg readFree; split <;> (try split) <;> rfl
@[simp] theorem readReg_ptP (n : Nat) (s : State) : (readReg n s).ptP = s.ptP := by
  unfold readReg readFree; split <;> (try split) <;> rfl
@[simp] theorem readReg_ptQ (n : Nat) (s : State) : (readReg n s).ptQ = s.ptQ := by
  unfold readReg readFree; split <;> (try split) <;> rfl
@[simp] theorem readReg_colin (n : Nat) (s : State) : (readReg n s).colin = s.colin := by
  unfold readReg readFree; split <;> (try split) <;> rfl
@[simp] theorem readReg_res (n : Nat) (s : State) : (readReg n s).res = s.res := by
  unfold readReg readFree; split <;> (try split) <;> rfl
@[simp] theorem readReg_status (n : Nat) (s : State) : (readReg n s).status = s.status := by
  unfold readReg readFree; split <;> (try split) <;> rfl
@[simp] theorem readReg_engine (n : Nat) (s : State) : (readReg n s).engine = s.engine := by
  unfold readReg readFree; split <;> (try split) <;> rfl
@[simp] theorem readReg_scan (n : Nat) (s : State) : (readReg n s).scan = s.scan := by
  unfold readReg readFree; split <;> (try split) <;> rfl
@[simp] theorem readReg_mem (n : Nat) (s : State) : (readReg n s).mem = s.mem := by
  unfold readReg readFree; split <;> (try split) <;> rfl
@[simp] theorem readReg_touched (n : Nat) (s : State) : (readReg n s).touched = s.touched := by
  unfold readReg readFree; split <;> (try split) <;> rfl
@[simp] theorem readReg_inbox (n : Nat) (s : State) : (readReg n s).inbox = s.inbox := by
  unfold readReg readFree; split <;> (try split) <;> rfl

/-- A command ends with DONE and its ERR, whatever the host did (`60_exceptions.md` R211, R213). -/
@[simp] theorem complete_status (e : Option CmdError) (s : State) :
    (complete e s).status = { s.status with done := true, err := e } := by
  unfold complete; split <;> rfl

@[simp] theorem complete_engine (e : Option CmdError) (s : State) : (complete e s).engine = .idle := by
  unfold complete; split <;> rfl

@[simp] theorem complete_touched (e : Option CmdError) (s : State) : (complete e s).touched = false := by
  unfold complete
  split
  · rfl
  · simpa using ‹¬s.touched = true›

/-- Without a forbidden host access a completion is `finish`. -/
theorem complete_untouched (e : Option CmdError) {s : State} (h : s.touched = false) : complete e s = finish e s := by
  unfold complete; rw [h]; rfl

theorem succeed_eq (s : State) : succeed s = complete none s := rfl

theorem raiseError_eq (e : CmdError) (s : State) : raiseError e s = complete (some e) s := rfl

@[simp] theorem zeroFill_imgA (s : State) : (zeroFill s).mem.imgA = s.mem.imgA := by unfold zeroFill; split <;> rfl

@[simp] theorem zeroFill_imgB (s : State) : (zeroFill s).mem.imgB = s.mem.imgB := by unfold zeroFill; split <;> rfl

@[simp] theorem zeroFill_palA (s : State) : (zeroFill s).mem.palA = s.mem.palA := by unfold zeroFill; split <;> rfl

@[simp] theorem zeroFill_palB (s : State) : (zeroFill s).mem.palB = s.mem.palB := by unfold zeroFill; split <;> rfl

@[simp] theorem startScan_engine (s : State) : (startScan s).engine = .scanning := by
  unfold startScan; rw [zeroFill_engine]

@[simp] theorem startScan_scan (s : State) : (startScan s).scan = Scan.clear := by
  unfold startScan; rw [zeroFill_scan]

@[simp] theorem startScan_res (s : State) :
    (startScan s).res = { s.res with maxDelta := maxDeltaOf s.opts.threshold } := by
  unfold startScan; rw [zeroFill_res]; rfl

@[simp] theorem scramble_imgA (s : State) : (scramble s).mem.imgA = s.mem.imgA := rfl

@[simp] theorem scramble_imgB (s : State) : (scramble s).mem.imgB = s.mem.imgB := rfl

@[simp] theorem scramble_palA (s : State) : (scramble s).mem.palA = s.mem.palA := rfl

@[simp] theorem scramble_palB (s : State) : (scramble s).mem.palB = s.mem.palB := rfl

/-- BUSY is 0 exactly when no command is in progress (`10_state.md` R16). -/
theorem busy_eq_false_iff (s : State) : s.busy = false ↔ s.engine = .idle := by
  unfold State.busy; cases s.engine <;> simp

@[simp] theorem busy_complete (e : Option CmdError) (s : State) : (complete e s).busy = false :=
  (busy_eq_false_iff _).2 (complete_engine e s)

@[simp] theorem busy_accept (w : CmdWord) (s : State) : (accept w s).busy = true := rfl

end Sys2Proof.Machine
end

