-- ==== Sys2Proof/Laws/Ops.lean ====
section
/-! SUPPORT. For each shared operation, one lemma that says everything it can do, and the congruences: what the
pixel fetch, the classifier and the comparator look at. -/

namespace Sys2Proof.Machine

/-! ### Computations that may need an unwritten byte -/

theorem bind_ok_iff {α β : Type} (x : Except Fault α) (f : α → Except Fault β) (r : β) :
    (x >>= f) = .ok r ↔ ∃ a, x = .ok a ∧ f a = .ok r := by
  cases x with
  | error e => constructor
               · intro h; cases h
               · rintro ⟨a, h, _⟩; cases h
  | ok a => constructor
            · intro h; exact ⟨a, rfl, h⟩
            · rintro ⟨b, h, h2⟩; cases h; exact h2

@[simp] theorem ok_bind {α β : Type} (a : α) (f : α → Except Fault β) : ((.ok a : Except Fault α) >>= f) = f a := rfl

theorem settle_next_iff (r : Except Fault State) (t : State) : settle r = .next t ↔ r = .ok t := by
  cases r <;> simp [settle]

@[simp] theorem settle_ok (t : State) : settle (.ok t) = .next t := rfl

/-- A command behind its gates answers the error of the first gate that fires, or what its body answers. -/
theorem behindGates_next_iff (gate : Option CmdError) (s : State) (body : Except Fault State) (t : State) :
    behindGates gate s body = .next t ↔
      (∃ e, gate = some e ∧ t = raiseError e s) ∨ (gate = none ∧ body = .ok t) := by
  cases gate with
  | none => simp [behindGates, settle_next_iff]
  | some e => simp [behindGates, eq_comm]

theorem behindGates_none {gate : Option CmdError} (h : gate = none) (s : State) (body : Except Fault State) :
    behindGates gate s body = settle body := by rw [h]; rfl

theorem behindGates_some {gate : Option CmdError} {e : CmdError} (h : gate = some e) (s : State)
    (body : Except Fault State) : behindGates gate s body = .next (raiseError e s) := by rw [h]; rfl

/-! ### Reads -/

theorem imgByte_ok_iff (s : State) (sel : Sel) (off : Nat) (v : Byte) :
    imgByte s sel off = .ok v ↔ readByte s.mem (imgOf sel) off = some v := by
  unfold imgByte
  cases readByte s.mem (imgOf sel) off <;> simp

theorem imgByte_error_iff (s : State) (sel : Sel) (off : Nat) (f : Fault) :
    imgByte s sel off = .error f ↔ readByte s.mem (imgOf sel) off = none ∧ f = .unwrittenByte sel off := by
  unfold imgByte
  cases readByte s.mem (imgOf sel) off <;> simp [eq_comm]

theorem palEntry_error_iff (s : State) (sel : Sel) (i : Nat) (f : Fault) :
    palEntry s sel i = .error f ↔ cellGet (palOf s.mem sel) i = none ∧ f = .unwrittenEntry sel i := by
  unfold palEntry
  cases cellGet (palOf s.mem sel) i <;> simp [eq_comm]

theorem palEntry_ok_iff (s : State) (sel : Sel) (i : Nat) (v : ColorWord) :
    palEntry s sel i = .ok v ↔ cellGet (palOf s.mem sel) i = some v := by
  unfold palEntry
  cases cellGet (palOf s.mem sel) i <;> simp

/-- A run of n bytes is the n bytes the space holds there, and needs all of them. -/
theorem imgBytes_ok_iff (s : State) (sel : Sel) (off n : Nat) (l : List Byte) :
    imgBytes s sel off n = .ok l ↔
      l.length = n ∧ ∀ k, k < n → readByte s.mem (imgOf sel) (off + k) = l[k]? := by
  induction n generalizing off l with
  | zero =>
    rw [imgBytes]
    constructor
    · intro h; cases h; exact ⟨rfl, fun k hk => absurd hk (Nat.not_lt_zero k)⟩
    · rintro ⟨h, _⟩; rw [List.length_eq_zero_iff.1 h]
  | succ n ih =>
    rw [imgBytes]
    simp only [bind_ok_iff, imgByte_ok_iff, ih]
    constructor
    · rintro ⟨v, hv, rest, ⟨hl, hr⟩, h⟩
      cases h
      refine ⟨by rw [List.length_cons, hl], fun k hk => ?_⟩
      cases k with
      | zero => simpa using hv
      | succ k =>
        have h2 := hr k (by omega)
        rw [show off + (k + 1) = off + 1 + k by omega, h2, List.getElem?_cons_succ]
    · rintro ⟨hl, hr⟩
      cases l with
      | nil => simp at hl
      | cons v rest =>
        refine ⟨v, by simpa using hr 0 (by omega), rest, ⟨by simpa using hl, fun k hk => ?_⟩, rfl⟩
        have h2 := hr (k + 1) (by omega)
        rwa [show off + (k + 1) = off + 1 + k by omega, List.getElem?_cons_succ] at h2

/-- A run of bytes stops at the first one that nothing has written. -/
theorem imgBytes_first_unwritten {s : State} {sel : Sel} {off n k : Nat} (hk : k < n)
    (hw : ∀ j, j < k → ∃ v, readByte s.mem (imgOf sel) (off + j) = some v)
    (hn : readByte s.mem (imgOf sel) (off + k) = none) :
    imgBytes s sel off n = .error (.unwrittenByte sel (off + k)) := by
  induction n generalizing off k with
  | zero => omega
  | succ n ih =>
    rw [imgBytes]
    cases k with
    | zero => rw [(imgByte_error_iff s sel off _).2 ⟨hn, rfl⟩]; rfl
    | succ k =>
      obtain ⟨v, hv⟩ := hw 0 (by omega)
      rw [show off + (k + 1) = off + 1 + k by omega] at hn ⊢
      rw [(imgByte_ok_iff s sel off v).2 hv, ok_bind, ih (by omega) (fun j hj => ?_) hn]
      · rfl
      · rw [show off + 1 + j = off + (j + 1) by omega]
        exact hw (j + 1) (by omega)

/-! ### What the units look at -/

/-- Two states show the units the same descriptors, options, threshold, images and palettes. -/
structure SameView (s t : State) : Prop where
  opts : t.opts = s.opts
  descA : t.descA = s.descA
  descB : t.descB = s.descB
  imgA : t.mem.imgA = s.mem.imgA
  imgB : t.mem.imgB = s.mem.imgB
  palA : t.mem.palA = s.mem.palA
  palB : t.mem.palB = s.mem.palB
  maxDelta : t.res.maxDelta = s.res.maxDelta

theorem SameView.refl (s : State) : SameView s s := ⟨rfl, rfl, rfl, rfl, rfl, rfl, rfl, rfl⟩

theorem SameView.trans {s t u : State} (h : SameView s t) (k : SameView t u) : SameView s u :=
  ⟨k.opts.trans h.opts, k.descA.trans h.descA, k.descB.trans h.descB, k.imgA.trans h.imgA, k.imgB.trans h.imgB,
    k.palA.trans h.palA, k.palB.trans h.palB, k.maxDelta.trans h.maxDelta⟩

theorem SameView.desc {s t : State} (h : SameView s t) (sel : Sel) : t.desc sel = s.desc sel := by
  cases sel
  · exact h.descA
  · exact h.descB

theorem imgByte_congr {s t : State} (h : SameView s t) (sel : Sel) (off : Nat) :
    imgByte t sel off = imgByte s sel off := by
  cases sel
  · simp [imgByte, readByte, imgOf, spaceOf, h.imgA]
  · simp [imgByte, readByte, imgOf, spaceOf, h.imgB]

theorem palEntry_congr {s t : State} (h : SameView s t) (sel : Sel) (i : Nat) :
    palEntry t sel i = palEntry s sel i := by
  cases sel
  · simp [palEntry, palOf, h.palA]
  · simp [palEntry, palOf, h.palB]

theorem imgBytes_congr {s t : State} (h : SameView s t) (sel : Sel) (off n : Nat) :
    imgBytes t sel off n = imgBytes s sel off n := by
  induction n generalizing off with
  | zero => rfl
  | succ n ih => rw [imgBytes, imgBytes, imgByte_congr h]; simp only [ih]

theorem rawPixel_congr {s t : State} (h : SameView s t) (sel : Sel) (p : Point) :
    rawPixel t sel p = rawPixel s sel p := by
  unfold rawPixel; rw [h.desc, imgBytes_congr h]

theorem canonPixel_congr {s t : State} (h : SameView s t) (sel : Sel) (p : Point) :
    canonPixel t sel p = canonPixel s sel p := by
  unfold canonPixel canonGray canonAlpha canonRgba canonCmyk canonPaletted
  simp only [h.desc, imgByte_congr h, palEntry_congr h]

theorem delta_congr {s t : State} (h : SameView s t) (s1 : Sel) (p : Point) (s2 : Sel) (q : Point) (y : Bool) :
    delta t s1 p s2 q y = delta s s1 p s2 q y := by
  unfold delta; simp only [canonPixel_congr h]

theorem sameLoop_congr {s t : State} (h : SameView s t) (sel : Sel) (p : Point) (n : Nat) (qs : List Point)
    (c : Nat) : sameLoop t sel p n qs c = sameLoop s sel p n qs c := by
  induction qs generalizing c with
  | nil => rfl
  | cons q qs ih => rw [sameLoop, sameLoop]; simp only [rawPixel_congr h, ih]

theorem sameNeighbors_congr {s t : State} (h : SameView s t) (sel : Sel) (p : Point) (n : Nat) :
    sameNeighbors t sel p n = sameNeighbors s sel p n := by
  unfold sameNeighbors; rw [h.desc, sameLoop_congr h]

theorem extremaLoop_congr {s t : State} (h : SameView s t) (sel : Sel) (p : Point) (qs : List Point) (e : Extrema) :
    extremaLoop t sel p qs e = extremaLoop s sel p qs e := by
  induction qs generalizing e with
  | nil => rfl
  | cons q qs ih => rw [extremaLoop, extremaLoop]; simp only [delta_congr h, ih]

theorem antialiased_congr {s t : State} (h : SameView s t) (sa sb : Sel) (p : Point) :
    antialiased t sa sb p = antialiased s sa sb p := by
  unfold antialiased extremaVerdict sameInBoth
  simp only [extremaLoop_congr h, sameNeighbors_congr h, h.desc]

/-- The verdict on a pixel depends on nothing a running CMP changes (`43_compare.md` R190). -/
theorem judge_congr {s t : State} (h : SameView s t) (p : Point) : judge t p = judge s p := by
  unfold judge classify overClass aaEither colorFor
  simp only [delta_congr h, antialiased_congr h, canonPixel_congr h, h.opts, h.maxDelta]

end Sys2Proof.Machine
end

