-- ==== Sys2Proof/Laws/Exec.lean ====
section
/-! SUPPORT. What a command, a step of the scan and a step of the machine can do, each said once. -/

namespace Sys2Proof.Machine

/-! ### The commands -/

/-- A command other than CMP ends with an error and no result, or succeeds having written result registers only
(`30_encoding.md` R93). -/
theorem execHelper_next_cases {i : Instr} (hi : i ≠ .cmp) {s t : State} (h : exec i s = .next t) :
    (∃ e, t = raiseError e s) ∨ (∃ r, t = succeed { s with res := r }) := by
  cases i with
  | cmp => exact absurd rfl hi
  | pixel =>
    rcases (behindGates_next_iff _ _ _ _).1 h with ⟨e, _, rfl⟩ | ⟨_, h⟩
    · exact .inl ⟨e, rfl⟩
    · obtain ⟨v, _, h⟩ := (bind_ok_iff _ _ _).1 h
      cases h; exact .inr ⟨_, rfl⟩
  | dimeq => cases h; exact .inr ⟨_, rfl⟩
  | ident =>
    obtain ⟨v, _, h⟩ := (bind_ok_iff _ _ _).1 ((settle_next_iff _ _).1 h)
    cases h; exact .inr ⟨_, rfl⟩
  | pos sel1 =>
    rcases (behindGates_next_iff _ _ _ _).1 h with ⟨e, _, rfl⟩ | ⟨_, h⟩
    · exact .inl ⟨e, rfl⟩
    · cases h; exact .inr ⟨_, rfl⟩
  | rdpix sel1 =>
    rcases (behindGates_next_iff _ _ _ _).1 h with ⟨e, _, rfl⟩ | ⟨_, h⟩
    · exact .inl ⟨e, rfl⟩
    · obtain ⟨v, _, h⟩ := (bind_ok_iff _ _ _).1 h
      cases h; exact .inr ⟨_, rfl⟩
  | yiq => cases h; exact .inr ⟨_, rfl⟩
  | blendw => cases h; exact .inr ⟨_, rfl⟩
  | graybl =>
    rcases (behindGates_next_iff _ _ _ _).1 h with ⟨e, _, rfl⟩ | ⟨_, h⟩
    · exact .inl ⟨e, rfl⟩
    · cases h; exact .inr ⟨_, rfl⟩
  | cdelta onlyY sel1 sel2 =>
    rcases (behindGates_next_iff _ _ _ _).1 h with ⟨e, _, rfl⟩ | ⟨_, h⟩
    · exact .inl ⟨e, rfl⟩
    · obtain ⟨v, _, h⟩ := (bind_ok_iff _ _ _).1 h
      cases h; exact .inr ⟨_, rfl⟩
  | samenb sel1 n =>
    rcases (behindGates_next_iff _ _ _ _).1 h with ⟨e, _, rfl⟩ | ⟨_, h⟩
    · exact .inl ⟨e, rfl⟩
    · obtain ⟨v, _, h⟩ := (bind_ok_iff _ _ _).1 h
      cases h; exact .inr ⟨_, rfl⟩
  | aa sel1 sel2 =>
    rcases (behindGates_next_iff _ _ _ _).1 h with ⟨e, _, rfl⟩ | ⟨_, h⟩
    · exact .inl ⟨e, rfl⟩
    · obtain ⟨v, _, h⟩ := (bind_ok_iff _ _ _).1 h
      cases h; exact .inr ⟨_, rfl⟩

/-- CMP ends with the error of a gate, or at the identity gate, or starts its scan
(`43_compare.md` R180 to R186). -/
theorem execCmp_next_cases {s t : State} (h : exec .cmp s = .next t) :
    (∃ e, documentGates s cmpChecks = some e ∧ t = raiseError e s) ∨
    (documentGates s cmpChecks = none ∧ identicalBytes s = .ok true ∧ t = identityEnd s) ∨
    (documentGates s cmpChecks = none ∧ identicalBytes s = .ok false ∧
      ∃ e, hardwareGates s cmpChecks = some e ∧ t = raiseError e s) ∨
    (documentGates s cmpChecks = none ∧ identicalBytes s = .ok false ∧
      hardwareGates s cmpChecks = none ∧ t = startScan s) := by
  rcases (behindGates_next_iff _ _ _ _).1 h with ⟨e, he, rfl⟩ | ⟨hg, h⟩
  · exact .inl ⟨e, he, rfl⟩
  · obtain ⟨same, hs, h⟩ := (bind_ok_iff _ _ _).1 h
    cases same with
    | true => cases h; exact .inr (.inl ⟨hg, hs, rfl⟩)
    | false =>
      cases h
      cases hh : hardwareGates s cmpChecks with
      | some e =>
        exact .inr (.inr (.inl ⟨hg, hs, e, rfl, by unfold cmpPastIdentity; rw [hh]⟩))
      | none =>
        exact .inr (.inr (.inr ⟨hg, hs, rfl, by unfold cmpPastIdentity; rw [hh]⟩))

/-! ### The scan -/

/-- A lane's step is one of the three of `43_compare.md` R191, or nothing when none is enabled. -/
theorem laneMove_ok_cases {s t : State} {i : Nat} (h : laneMove s i = .ok t) :
    (canDispatch s i = true ∧ t = dispatch s i) ∨
    (canPixelStep s i = true ∧ ∃ v, judge s (lanePoint (s.lane i)) = .ok v ∧ t = applyVerdict s i v) ∨
    (canRetire s i = true ∧ t = retire s i) ∨
    (canDispatch s i = false ∧ canPixelStep s i = false ∧ canRetire s i = false ∧ t = s) := by
  unfold laneMove at h
  split at h
  · cases h; exact .inl ⟨‹_›, rfl⟩
  · split at h
    · unfold pixelStep at h
      obtain ⟨v, hv, h⟩ := (bind_ok_iff _ _ _).1 h
      cases h; exact .inr (.inl ⟨‹_›, v, hv, rfl⟩)
    · split at h
      · cases h; exact .inr (.inr (.inl ⟨‹_›, rfl⟩))
      · cases h
        exact .inr (.inr (.inr ⟨by simpa using ‹¬canDispatch s i = true›,
          by simpa using ‹¬canPixelStep s i = true›, by simpa using ‹¬canRetire s i = true›, rfl⟩))

/-- No lane that is listed is active. -/
theorem firstActive_none_iff (t : LaneTable) :
    firstActive t = none ↔ t.any (fun e => e.2.active) = false := by
  unfold firstActive
  rw [Option.map_eq_none_iff, List.find?_eq_none, List.any_eq_false]

/-- The first active lane is listed and active. -/
theorem firstActive_some {t : LaneTable} {i : Nat} (h : firstActive t = some i) :
    ∃ l, (i, l) ∈ t ∧ l.active = true := by
  unfold firstActive at h
  obtain ⟨e, he, rfl⟩ := Option.map_eq_some_iff.1 h
  exact ⟨e.2, List.mem_of_find?_eq_some he, by simpa using List.find?_some he⟩

/-- A step of the scan is one of the steps of `43_compare.md` R191 of some lane, the join, or nothing; without a choice it
is never nothing. -/
theorem scanStep_ok_cases {s t : State} {pick : Option Nat} (h : scanStep pick s = .ok t) :
    (∃ i, laneMove s i = .ok t ∧ (isLane i = true ∨ firstActive s.scan.lanes = some i)) ∨
    (canJoin s = true ∧ t = join s) ∨ (pick ≠ none ∧ t = s) := by
  cases pick with
  | some i =>
    simp only [scanStep, chosenScanStep] at h
    split at h
    · rename_i hi
      rw [Bool.and_eq_true] at hi
      exact .inl ⟨i, h, .inl hi.1⟩
    · split at h
      · cases h; exact .inr (.inl ⟨‹_›, rfl⟩)
      · cases h; exact .inr (.inr ⟨by simp, rfl⟩)
  | none =>
    simp only [scanStep, defaultScanStep] at h
    split at h
    · exact .inl ⟨_, h, .inr ‹_›⟩
    · rename_i hn
      split at h
      · rename_i hd
        cases h
        exact .inl ⟨0, by unfold laneMove; rw [if_pos hd], .inl rfl⟩
      · rename_i hd
        cases h
        refine .inr (.inl ⟨?_, rfl⟩)
        have h2 := (firstActive_none_iff _).1 hn
        have h3 : (s.lane 0).active = false := by
          unfold State.lane laneGet
          cases h4 : cellGet s.scan.lanes 0 with
          | none => rfl
          | some l =>
            have h5 : ∀ (m : LaneTable), cellGet m 0 = some l → (0, l) ∈ m := by
              intro m
              induction m with
              | nil => intro h; cases h
              | cons c m ih =>
                obtain ⟨k, v⟩ := c
                rw [cellGet_cons]
                split
                · intro h; cases h; subst_vars; exact List.mem_cons_self ..
                · intro h; exact List.mem_cons_of_mem _ (ih h)
            have h6 := List.any_eq_false.1 h2 _ (h5 _ h4)
            simpa using h6
        unfold canDispatch at hd
        unfold canJoin
        rw [h2]
        simpa [h3] using hd

/-! ### The host's writes -/

/-- The issue of a word accepts a command, or completes an illegal word at once. -/
theorem issue_cases (w : CmdWord) (s : State) :
    (∃ i, decodeWord w = .ok i ∧ issue w s = accept w s) ∨
    (∃ e, decodeWord w = .error e ∧ issue w s = raiseError .illegalCommand (accept w s)) := by
  unfold issue latched
  cases decodeWord w with
  | ok i => exact .inl ⟨i, rfl, rfl⟩
  | error e => exact .inr ⟨e, rfl, rfl⟩

/-- The completion of an illegal word: no mark is left by an earlier access, so nothing is freed. -/
theorem raiseError_accept (e : CmdError) (w : CmdWord) (s : State) :
    raiseError e (accept w s) =
      { s with engine := .idle, status := { Status.clear with done := true, err := some e }, res := Results.clear,
               scan := Scan.clear, touched := false } := rfl

/-- A write of the register window changes nothing, is dropped, issues a command, or stores an RW register. -/
theorem writeReg_cases (n : Nat) (v : Word) (s : State) :
    writeReg n v s = s ∨ (s.busy = true ∧ writeReg n v s = dropWrite s) ∨
    (s.busy = false ∧ writeReg n v s = issue (v.setWidth 32) s) ∨
    (s.busy = false ∧ ∃ r, regOfNumber n = some r ∧ writeReg n v s = storeReg r v s) := by
  unfold writeReg
  cases hr : regOfNumber n with
  | none => exact .inl rfl
  | some r =>
    cases hro : isReadOnly r with
    | true => exact .inl (by simp [hro])
    | false =>
      cases hb : s.busy with
      | true => exact .inr (.inl ⟨rfl, by simp [hro, writeWritable, hb]⟩)
      | false =>
        by_cases hc : r = .cmd
        · subst hc
          exact .inr (.inr (.inl ⟨rfl, by simp [isReadOnly, writeWritable, hb]⟩))
        · exact .inr (.inr (.inr ⟨rfl, r, rfl, by simp [hro, writeWritable, hb, hc]⟩))

/-! ### The machine -/

/-- A step of the PDE itself. -/
theorem pdeStep_next_cases {s t : State} {pick : Option Nat} (h : pdeStep pick s = .next t) :
    (s.engine = .idle ∧ t = s) ∨
    (∃ w i, s.engine = .accepted w ∧ decodeWord w = .ok i ∧ exec i s = .next t) ∨
    (∃ w e, s.engine = .accepted w ∧ decodeWord w = .error e ∧ t = raiseError .illegalCommand s) ∨
    (s.engine = .scanning ∧ scanStep pick s = .ok t) := by
  unfold pdeStep at h
  split at h
  · cases h; exact .inl ⟨‹_›, rfl⟩
  · rename_i w hw
    unfold runLatched latched at h
    split at h
    · exact .inr (.inl ⟨w, _, hw, ‹_›, h⟩)
    · cases h; exact .inr (.inr (.inl ⟨w, _, hw, ‹_›, rfl⟩))
  · exact .inr (.inr (.inr ⟨‹_›, (settle_next_iff _ _).1 h⟩))

/-- Whose turn it is. -/
theorem turn_cases (s : State) :
    (s.inbox = [] ∧ turn s = .pde none s) ∨
    (∃ rest, s.inbox = .wait :: rest ∧ s.busy = true ∧ turn s = .pde none s) ∨
    (∃ i rest, s.inbox = .engine i :: rest ∧ turn s = .pde (some i) { s with inbox := rest }) ∨
    (∃ e rest, s.inbox = e :: rest ∧ (∀ i, e ≠ .engine i) ∧ (e = .wait → s.busy = false) ∧
      turn s = .outside e { s with inbox := rest }) := by
  cases h : s.inbox with
  | nil => exact .inl ⟨rfl, by unfold turn; rw [h]⟩
  | cons e rest =>
    cases e with
    | wait =>
      cases hb : s.busy with
      | true => exact .inr (.inl ⟨rest, rfl, rfl, by unfold turn; rw [h]; simp [hb]⟩)
      | false =>
        exact .inr (.inr (.inr ⟨.wait, rest, rfl, (by intro i h; cases h), fun _ => rfl,
          by unfold turn; rw [h]; simp [hb]⟩))
    | engine i => exact .inr (.inr (.inl ⟨i, rest, rfl, by unfold turn; rw [h]⟩))
    | regWrite addr nbytes v =>
      exact .inr (.inr (.inr ⟨_, rest, rfl, (by intro i h; cases h), (by intro h; cases h), by unfold turn; rw [h]⟩))
    | regRead addr nbytes =>
      exact .inr (.inr (.inr ⟨_, rest, rfl, (by intro i h; cases h), (by intro h; cases h), by unfold turn; rw [h]⟩))
    | store sp off v =>
      exact .inr (.inr (.inr ⟨_, rest, rfl, (by intro i h; cases h), (by intro h; cases h), by unfold turn; rw [h]⟩))
    | load sp off =>
      exact .inr (.inr (.inr ⟨_, rest, rfl, (by intro i h; cases h), (by intro h; cases h), by unfold turn; rw [h]⟩))
    | palStore b i v =>
      exact .inr (.inr (.inr ⟨_, rest, rfl, (by intro i h; cases h), (by intro h; cases h), by unfold turn; rw [h]⟩))
    | palLoad b i =>
      exact .inr (.inr (.inr ⟨_, rest, rfl, (by intro i h; cases h), (by intro h; cases h), by unfold turn; rw [h]⟩))
    | reset =>
      exact .inr (.inr (.inr ⟨_, rest, rfl, (by intro i h; cases h), (by intro h; cases h), by unfold turn; rw [h]⟩))

/-- A step of the machine is a step of the PDE, in the same state or with one `engine` event consumed, or a step of
the outside with its event consumed. -/
theorem step_next_cases {s t : State} (h : step s = .next t) :
    (∃ pick r, pdeStep pick { s with inbox := r } = .next t) ∨
    (∃ e rest, s.inbox = e :: rest ∧ outsideStep e { s with inbox := rest } = .next t) := by
  unfold step at h
  rcases turn_cases s with ⟨_, ht⟩ | ⟨_, _, _, ht⟩ | ⟨i, rest, _, ht⟩ | ⟨e, rest, hi, _, _, ht⟩
  · rw [ht] at h; exact .inl ⟨none, s.inbox, h⟩
  · rw [ht] at h; exact .inl ⟨none, s.inbox, h⟩
  · rw [ht] at h; exact .inl ⟨some i, rest, h⟩
  · rw [ht] at h; exact .inr ⟨e, rest, hi, h⟩

end Sys2Proof.Machine
end

