-- ==== Sys2Proof/Laws/PerInstr.lean ====
section
/-! SUPPORT. One fact per instruction: the word it assembles to is matched by its own row of the table and by no other
(`30_encoding.md` R91, R97). -/

namespace Sys2Proof.Laws.OneRow

/-- The row of an instruction (`30_encoding.md` R92). -/
def ownRow : Instr → Row
  | .cmp => .cmp
  | .pixel => .pixel
  | .dimeq => .dimeq
  | .ident => .ident
  | .pos _ => .pos
  | .rdpix _ => .rdpix
  | .yiq => .yiq
  | .blendw => .blendw
  | .graybl => .graybl
  | .cdelta _ _ _ => .cdelta
  | .samenb _ _ => .samenb
  | .aa _ _ => .aa

/-- The rows that match the instruction's word are its own row alone. -/
def Statement (i : Instr) : Prop :=
  i.wellFormed = true → allRows.filter (rowMatches (encode i)) = [ownRow i]

theorem cmp : Statement .cmp := by unfold Statement; decide

theorem pixel : Statement .pixel := by unfold Statement; decide

theorem dimeq : Statement .dimeq := by unfold Statement; decide

theorem ident : Statement .ident := by unfold Statement; decide

theorem pos (s : Sel) : Statement (.pos s) := by unfold Statement; cases s <;> decide

theorem rdpix (s : Sel) : Statement (.rdpix s) := by unfold Statement; cases s <;> decide

theorem yiq : Statement .yiq := by unfold Statement; decide

theorem blendw : Statement .blendw := by unfold Statement; decide

theorem graybl : Statement .graybl := by unfold Statement; decide

theorem cdelta (y : Bool) (s t : Sel) : Statement (.cdelta y s t) := by
  unfold Statement; cases y <;> cases s <;> cases t <;> decide

theorem samenb (s : Sel) (n : Nat) : Statement (.samenb s n) := by
  intro h
  have h : n < 16 := by simpa [Instr.wellFormed, nFits] using h
  interval_cases n <;> cases s <;> decide

theorem aa (s t : Sel) : Statement (.aa s t) := by
  unfold Statement; cases s <;> cases t <;> decide

end Sys2Proof.Laws.OneRow
end

