-- ==== Sys2Proof/Tests/Slice0.lean ====
section
/-! SUPPORT. The model's own tests. Every expected value is the spec's (`95_test_vectors.md` and the rules it names).
Then, for every statement with hypotheses, states and operands that meet them. -/

namespace Sys2Proof.Tests

open Sys2Proof Sys2Proof.Machine

-- One theorem at a time: each kernel evaluation below waits for the theorems before it, and a waiting thread holds a stack.
set_option Elab.async false

/-! ### Well-formedness, decoding, encoding -/

/-- N is a 4-bit field (`30_encoding.md` R90): 15 is its last value, 16 is not one. -/
theorem test_wellFormed_refuses_wide_n :
    (Instr.samenb .a 16).wellFormed = false ∧ (Instr.samenb .b 15).wellFormed = true := by decide

/-- The words of `95_test_vectors.md` section 8 and the rows of `30_encoding.md` R91, bit by bit. -/
theorem test_decode_rows_without_operands :
    decodeWord 0b00000000000000000000000000000001#32 = .ok .cmp ∧
    decodeWord 0b00000000000000000000000000000010#32 = .ok .pixel ∧
    decodeWord 0b00000000000000000000000000000011#32 = .ok .dimeq ∧
    decodeWord 0b00000000000000000000000000000100#32 = .ok .ident ∧
    decodeWord 0b00000000000000000000000000000111#32 = .ok .yiq ∧
    decodeWord 0b00000000000000000000000000001000#32 = .ok .blendw ∧
    decodeWord 0b00000000000000000000000000001001#32 = .ok .graybl := by decide

theorem test_decode_rows_with_operands :
    decodeWord 0b00000000000000000000001000000101#32 = .ok (.pos .b) ∧
    decodeWord 0b00000000000000000000001000000110#32 = .ok (.rdpix .b) ∧
    decodeWord 0b00000000000000000000000000001010#32 = .ok (.cdelta false .a .a) ∧
    decodeWord 0b00000000000000000000001100001010#32 = .ok (.cdelta true .b .a) ∧
    decodeWord 0b00000000000000000000011100001010#32 = .ok (.cdelta true .b .b) ∧
    decodeWord 0b00000000000000000011000000001011#32 = .ok (.samenb .a 3) ∧
    decodeWord 0b00000000000000001111001000001011#32 = .ok (.samenb .b 15) ∧
    decodeWord 0b00000000000000000000010000001100#32 = .ok (.aa .a .b) ∧
    decodeWord 0b00000000000000000000001000001100#32 = .ok (.aa .b .a) := by decide

/-- The illegal words of `95_test_vectors.md` section 8. -/
theorem test_decode_illegal_words :
    decodeWord 0x00000000#32 = .error .unassignedOpcode ∧ decodeWord 0x0000000D#32 = .error .unassignedOpcode ∧
    decodeWord 0x000000FF#32 = .error .unassignedOpcode ∧ decodeWord 0x00000101#32 = .error .unusedField ∧
    decodeWord 0x0000010C#32 = .error .unusedField ∧ decodeWord 0x0000040B#32 = .error .unusedField ∧
    decodeWord 0x0000100C#32 = .error .unusedField ∧ decodeWord 0x00000801#32 = .error .reservedBits ∧
    decodeWord 0x00010001#32 = .error .reservedBits := by decide

/-- Bits 63:32 of a write to CMD are ignored; the table's question reads the word. -/
theorem test_decode_other_entries :
    decodeCmdValue 0xFFFFFFFF00000007#64 = .ok .yiq ∧ decodeTableWord 32 0x30A = some (.cdelta true .b .a) ∧
    decodeTableWord 32 0x801 = none ∧ encode (.samenb .b 15) = 0x0000F20B#32 ∧
    encode (.cdelta true .b .b) = 0x0000070A#32 := by decide

/-! ### Small machines -/

/-- The state of a next outcome. -/
def after : Host.Outcome State Fault Refusal → Option State
  | .next t => some t
  | .fault _ => none
  | .refused _ => none

/-- A next outcome from what is known of its state. -/
theorem next_of_after {α : Type} {o : Host.Outcome State Fault Refusal} (f : State → α) {a : α}
    (h : (after o).map f = some a) : ∃ t, o = .next t ∧ f t = a := by
  cases o with
  | next t => exact ⟨t, rfl, by simpa [after] using h⟩
  | fault _ => simp [after] at h
  | refused _ => simp [after] at h

/-- What register r reads after the one step that runs the command word w. -/
def regAfter (w : Nat) (s : State) (r : Reg) : Option Word :=
  (after (step (s.withFetchWord 32 w))).map fun t => regValue t r

/-- The bytes from offset k on, as cells. -/
def cellsFrom (k : Nat) : List Byte → Memory
  | [] => []
  | v :: rest => (k, v) :: cellsFrom (k + 1) rest

/-- A machine with both buffers w × h of one model without row padding, holding the given bytes. -/
def pair (w h : BitVec 16) (model : BitVec 4) (a b : List Byte) : State :=
  { State.reset with
    descA := { w := w, h := h, stride := BitVec.ofNat 24 (w.toNat * bytesPerPixel model), model := model,
               len := BitVec.ofNat 40 a.length }
    descB := { w := w, h := h, stride := BitVec.ofNat 24 (w.toNat * bytesPerPixel model), model := model,
               len := BitVec.ofNat 40 b.length }
    mem := { Spaces.unwritten with imgA := cellsFrom 0 a, imgB := cellsFrom 0 b } }

/-- PT_P at (x, y). -/
def atPoint (x y : BitVec 16) (s : State) : State := { s with ptP := { x := x, y := y } }

/-- OUTPUT_EN set. -/
def drawing (s : State) : State :=
  { s with opts := { s.opts with flags := { s.opts.flags with outputEn := true } } }

/-- COLIN holding a colour. -/
def withColin (c : ColorWord) : State := { State.reset with colin := c }

/-- The pair M18: 1×1 Gray8, A = 05, B = C8. -/
def tiny : State := drawing (pair 1 1 0 [0x05] [0xC8])

/-- Image E1 as Gray8: black columns 0 to 2, white 3 to 6, in A the gray 80 at (3,2). -/
def edge : State :=
  drawing (atPoint 3 2 (pair 7 5 0
    [0, 0, 0, 255, 255, 255, 255, 0, 0, 0, 255, 255, 255, 255, 0, 0, 0, 128, 255, 255, 255,
     0, 0, 0, 255, 255, 255, 255, 0, 0, 0, 255, 255, 255, 255]
    [0, 0, 0, 255, 255, 255, 255, 0, 0, 0, 255, 255, 255, 255, 0, 0, 0, 255, 255, 255, 255,
     0, 0, 0, 255, 255, 255, 255, 0, 0, 0, 255, 255, 255, 255]))

/-- One pixel of a given model at (0,0) of buffer A, with the bytes 12 34 56 78 9A BC DE F0 and palette entry 0x12. -/
def onePixel (model : BitVec 4) : State :=
  { State.reset with
    descA := { w := 1, h := 1, stride := 8, model := model, len := 8 }
    mem := { Spaces.unwritten with
      imgA := cellsFrom 0 [0x12, 0x34, 0x56, 0x78, 0x9A, 0xBC, 0xDE, 0xF0], palA := [(0x12, 0x11223344#32)] } }

/-! ### One step of each command (`95_test_vectors.md` sections 4 to 8) -/

/-- Vector Y1. -/
theorem test_yiq_y1 :
    regAfter 0x7 (withColin 0x0B16212C) .res0 = some 0x4033F8B15CD9CAB7 ∧
    regAfter 0x7 (withColin 0x0B16212C) .res1 = some 0xC02430EFB05196F6 ∧
    regAfter 0x7 (withColin 0x0B16212C) .res2 = some 0x3FF18B095B487B18 := by decide +kernel

/-- Vector B1. -/
theorem test_blendw_b1 :
    regAfter 0x8 (withColin 0x0B16212C) .res0 = some 0x406A9CBCBCBCBCBD ∧
    regAfter 0x8 (withColin 0x0B16212C) .res2 = some 0x406B163636363636 := by decide +kernel

/-- Vectors G1 (229.5 truncates to 229) and G4 (A = 0 gives 255), at the ALPHA of reset. -/
theorem test_graybl_g1_g4 :
    regAfter 0x9 (withColin 0x000000FF) .resc = some 0xE5E5E5FF ∧
    regAfter 0x9 (withColin 0x0B162100) .resc = some 0xFFFFFFFF := by decide +kernel

/-- ALPHA = 1.5: STATUS 0x442. -/
theorem test_graybl_alpha_out_of_range :
    regAfter 0x9 { State.reset with opts := { Options.reset with alpha := 0x3FF8000000000000 } } .status
      = some 0x442 := by decide +kernel

/-- Vectors F1 (POS at (3,2), as Gray8: 2·7 + 3 = 17) and F11 (POINT_P). -/
theorem test_pos_offset_and_error :
    regAfter 0x5 edge .resp = some 17 ∧ regAfter 0x5 (atPoint 7 0 edge) .status = some 0x542 := by decide +kernel

/-- Vectors F4, F8, F9: the low bytes dropped, the channels two bytes apart, the palette entry. -/
theorem test_rdpix_models :
    regAfter 0x6 (onePixel 1) .resc = some 0x121212FF ∧ regAfter 0x6 (onePixel 6) .resc = some 0x12569ADE ∧
    regAfter 0x6 (onePixel 9) .resc = some 0x11223344 ∧ regAfter 0x6 (onePixel 3) .resc = some 0xFFFFFF12 := by
  decide +kernel

/-- DIMEQ after reset: 0×0 and 0×0 are equal, and no EMPTY_IMAGE (`43_compare.md` R173). -/
theorem test_dimeq_reset : regAfter 0x3 State.reset .resb = some 1 ∧ regAfter 0x3 State.reset .status = some 2 := by
  decide +kernel

/-- IDENT on different bytes and on two empty arrays (`43_compare.md` R174). -/
theorem test_ident : regAfter 0x4 tiny .resb = some 0 ∧ regAfter 0x4 State.reset .resb = some 1 := by decide +kernel

/-- The delta of vector M18, 05 against C8. -/
theorem test_cdelta_m18 : regAfter 0x40A tiny .res0 = some 0x40D2C3821AC6AB7C := by decide +kernel

/-- Vectors N1 (4 equal neighbours and no bump: 3 true, 4 false). -/
theorem test_samenb_n1 :
    regAfter 0x300B (atPoint 3 1 edge) .resb = some 1 ∧ regAfter 0x400B (atPoint 3 1 edge) .resb = some 0 := by
  decide +kernel

/-- Vector N11. -/
theorem test_samenb_zero : regAfter 0xB edge .status = some 0x742 := by decide +kernel

/-- Vectors A1 and A2: the detector is not symmetric in its buffers. -/
theorem test_aa_a1_a2 :
    regAfter 0x40C edge .resb = some 1 ∧ regAfter 0x20C edge .resb = some 0 := by decide +kernel

/-- Vector X1: anti-aliased, written in the AA colour, not counted. -/
theorem test_pixel_x1 :
    regAfter 0x2 edge .res0 = some 0x40BFD5FBDE720F5A ∧ regAfter 0x2 edge .resb = some 0xA ∧
    regAfter 0x2 edge .resc = some 0xFFFF00FF ∧ regAfter 0x2 edge .count = some 0 := by decide +kernel

/-- Vectors V1 (EMPTY_IMAGE straight after reset) and V4 to V6: the identity gate before the format check. -/
theorem test_cmp_gates :
    regAfter 0x1 State.reset .status = some 0x12 ∧
    regAfter 0x1 (pair 1 1 12 [7] [7]) .status = some 0x2 ∧
    regAfter 0x1 (pair 1 1 12 [7] [8]) .status = some 0x32 := by decide +kernel

/-- The whole of M18: dispatch, pixel, retire, join. STATUS 6, COUNT 1, the difference colour in OUT. -/
theorem test_cmp_m18 :
    ((after (runSteps 5 (tiny.withFetchWord 32 0x1))).map fun t =>
      (regValue t .status, regValue t .count, regValue t .maxDelta, t.mem.out)) =
    some (0x6, 1, 0x4076026666666668, cellsFrom 0 [0xFF, 0x00, 0x00, 0xFF]) := by decide +kernel

/-- An illegal word: STATUS 0x052. -/
theorem test_illegal_word_status : regAfter 0xD State.reset .status = some 0x52 := by decide +kernel

/-- An illegal word written to CMD completes at once (`30_encoding.md` R94): the register write after it is not dropped. -/
theorem test_illegal_write_completes_at_once :
    ((after (runSteps 2 { State.reset with inbox := [.regWrite 8 8 0xD, .regWrite 0x28 8 7] })).map fun t =>
      (regValue t .status, regValue t .alpha)) = some (0x52, 7) := by decide

/-- The derived BPP of LAYOUT, and a reserved model code stored with BPP 0 (`95_test_vectors.md` section 5). -/
theorem test_layout_reads :
    regValue (storeReg .aLayout 0x000000040000001C State.reset) .aLayout = 0x000004040000001C ∧
    regValue (storeReg .aLayout 0x0000000C0000001C State.reset) .aLayout = 0x0000000C0000001C := by decide

/-- STATUS after each way a command can end, in the order of `errorTable` (`95_test_vectors.md` section 8); the table lists
each error once. -/
theorem test_status_codes :
    (errorTable.map fun row => packStatus false { Status.clear with done := true, err := row.1 }) =
      [0x002, 0x012, 0x022, 0x032, 0x832, 0x142, 0x942, 0x242, 0xA42, 0x342, 0x442, 0x542, 0x642, 0x742, 0x052] ∧
    (errorTable.map Prod.fst).Nodup ∧ (classTable.map Prod.fst).Nodup := by decide

/-- Rounding: 0.1 + 0.2 is not 0.3 but the next f64, and MAXDELTA of 0.05 (`95_test_vectors.md` section 3). -/
theorem test_float_rounding :
    fadd 0x3FB999999999999A 0x3FC999999999999A = 0x3FD3333333333334#64 ∧
    maxDeltaOf 0x3FA999999999999A = 0x4056026666666668#64 := by decide +kernel

/-! ### States that meet the hypotheses of the statements -/

/-- AtMostOneRowMatches. -/
theorem witness_row_matches : rowMatches 0x0000030A#32 .cdelta = true := by decide

/-- A machine with the word w latched and the events es to come. -/
def latchedWith (w : CmdWord) (es : List Event) (s : State) : State :=
  { s with engine := .accepted w, inbox := es }

/-- StepRunsTheLatchedCommand, each of its three clauses. -/
theorem witness_latched_word :
    (latchedWith 0x7 [] State.reset).engine = .accepted 0x7#32 ∧ decodeWord 0x7#32 = .ok .yiq ∧
    (latchedWith 0x7 [] State.reset).inbox = [] ∧
    (latchedWith 0x7 [.wait] State.reset).inbox = [.wait] ∧
    (latchedWith 0x7 [.engine 0] State.reset).inbox = [.engine 0] := by decide

/-- IllegalWordCompletesWithItsError: an illegal word to be written, and one latched. -/
theorem witness_latched_illegal :
    ({ State.reset with inbox := [.regWrite 8 8 0xD] } : State).busy = false ∧
    decodeWord ((0xD#64).extractLsb' 0 32) = .error .unassignedOpcode ∧
    ({ State.reset with inbox := [.regWrite 8 8 0xD] } : State).inbox = [.regWrite 8 8 0xD#64] ∧
    (latchedWith 0xD [] State.reset).engine = .accepted 0xD#32 ∧
    decodeWord 0xD#32 = .error .unassignedOpcode ∧ (latchedWith 0xD [] State.reset).inbox = [] ∧
    (latchedWith 0xD [] State.reset).touched = false := by decide

/-- A machine after reset with the events es to come. -/
def idleWith (es : List Event) : State := { State.reset with inbox := es }

/-- CmdWriteAccepts with a legal word (the illegal one stands above), and IdleWriteStoresDefinedFields at the first and the last RW register. -/
theorem witness_idle_writes :
    decodeWord ((0x1#64).extractLsb' 0 32) = .ok .cmp ∧
    (idleWith [.regWrite 8 8 0x1]).busy = false ∧ (idleWith [.regWrite 8 8 0x1]).inbox = [.regWrite 8 8 0x1#64] ∧
    (idleWith [.regWrite (8 * 3) 8 0xF]).inbox = [.regWrite (8 * 3) 8 0xF#64] ∧
    (idleWith [.regWrite (8 * 17) 8 0xF]).inbox = [.regWrite (8 * 17) 8 0xF#64] := by decide

/-- IdleWriteStoresDefinedFields on a register with reserved and derived bits: what A_LAYOUT (number 10) then reads, by
`10_state.md` R25. -/
theorem witness_layout_write :
    ((after (step (idleWith [.regWrite (8 * 10) 8 0xFFFFFFF4FF00001C#64]))).map fun t => regValue t .aLayout) =
      some 0x00000404_0000001C#64 := by decide

/-- BusyWritesAreDropped at CMD, the first RW register, the last, an RO register and a number that names none. -/
theorem witness_busy_writes :
    ∀ n ∈ [1, 3, 17, 18, 27], (latchedWith 0x1 [.regWrite (8 * n) 8 0] State.reset).busy = true ∧
      (latchedWith 0x1 [.regWrite (8 * n) 8 0] State.reset).inbox = [.regWrite (8 * n) 8 0#64] := by decide

/-- OtherRegistersIgnoreWrites at the ends of its ranges: ID, STATUS, COUNT, LANES, and 27, which is read too. -/
theorem witness_other_registers :
    (∀ n ∈ [0, 2, 18, 26, 27], writableNumber n = false ∧
      (idleWith [.regWrite (8 * n) 8 1]).inbox = [.regWrite (8 * n) 8 1#64]) ∧
    26 < 27 ∧ (idleWith [.regRead (8 * 27) 8]).inbox = [.regRead (8 * 27) 8] := by decide

/-- BusyReads: the result registers 18 and 25, and 0, 17 and 26, which are none. -/
theorem witness_busy_reads :
    (∀ n ∈ [18, 25], resultNumber n = true ∧ (regOfNumber n).isSome = true ∧
      (latchedWith 0x1 [.regRead (8 * n) 8] State.reset).busy = true ∧
      (latchedWith 0x1 [.regRead (8 * n) 8] State.reset).inbox = [.regRead (8 * n) 8]) ∧
    (∀ n ∈ [0, 17, 26], resultNumber n = false ∧ (regOfNumber n).isSome = true ∧
      (latchedWith 0x1 [.regRead (8 * n) 8] State.reset).inbox = [.regRead (8 * n) 8]) := by decide

/-- PartialAccessIsRefused: too narrow, and misaligned. -/
theorem witness_partial_access :
    ((4 : Nat) ≠ 8 ∨ (8 : Nat) % 8 ≠ 0) ∧ (idleWith [.regWrite 8 4 0]).inbox = [.regWrite 8 4 0#64] ∧
    ((8 : Nat) ≠ 8 ∨ (12 : Nat) % 8 ≠ 0) ∧ (idleWith [.regRead 12 8]).inbox = [.regRead 12 8] := by decide

/-- IdleReadsAndWait: a STATUS with a row of `errorTable`, a RESB with one of `classTable`, ID and LANES read while idle,
WAIT while idle and while busy. -/
theorem witness_idle_reads :
    (some CmdError.illegalCommand, 5#3, 0#4) ∈ errorTable ∧
    ({ State.reset with status := { State.reset.status with err := some .illegalCommand } } : State).status.err =
      some .illegalCommand ∧
    (State.reset.res.resClass, 0#2) ∈ classTable ∧
    (∀ n ∈ [0, 26], (regOfNumber n).isSome = true ∧ (idleWith [.regRead (8 * n) 8]).busy = false ∧
      (idleWith [.regRead (8 * n) 8]).inbox = [.regRead (8 * n) 8]) ∧
    (idleWith [.wait]).inbox = [.wait] ∧ (idleWith [.wait]).busy = false ∧
    (latchedWith 0x1 [.wait] tiny).inbox = [.wait] ∧ (latchedWith 0x1 [.wait] tiny).busy = true := by decide

/-- IdleMachineStaysAsItIs, ResetFromAnyState (with a command running). -/
theorem witness_idle_and_reset :
    State.reset.busy = false ∧ State.reset.inbox = [] ∧ (idleWith [.engine 3]).busy = false ∧
    (idleWith [.engine 3]).inbox = [.engine 3] ∧
    (latchedWith 0x1 [.reset] tiny).inbox = [.reset] := by
  decide

/-- IdleStoreThenLoad at the last byte of OUT and the last entry of PAL_B, first stored to, then loaded unwritten. -/
theorem witness_store_and_load :
    (idleWith [.store .out (2 ^ 34 - 1) 7, .load .out (2 ^ 34 - 1)]).busy = false ∧ 2 ^ 34 - 1 < spaceSize .out ∧
    (idleWith [.palStore .b 255 7, .palLoad .b 255]).busy = false ∧ 255 < palSize ∧
    (idleWith [.load .out (2 ^ 34 - 1)]).busy = false ∧
    readByte (idleWith [.load .out (2 ^ 34 - 1)]).mem .out (2 ^ 34 - 1) = none ∧
    (idleWith [.palLoad .b 255]).busy = false ∧ cellGet (palOf (idleWith [.palLoad .b 255]).mem .b) 255 = none := by
  decide

/-- ValidPixelsLieBelowLen, vector F10: the farthest pixel of the largest buffer. -/
theorem witness_largest_buffer :
    ({ w := 0xFFFF, h := 0xFFFF, stride := 0xFFFFFF, model := 6, len := 0xFFFFFFFFFF } : Desc).valid = true ∧
    ({ w := 0xFFFF, h := 0xFFFF, stride := 0xFFFFFF, model := 6, len := 0xFFFFFFFFFF } : Desc).inside
      ⟨65534, 65534⟩ = true := by decide

/-- ValidPixelsLieBelowLen: a precheck with both points that raises nothing. -/
theorem witness_passing_precheck : precheck edge ⟨[.a, .b], true, true, some .a, some .b⟩ = none := by decide +kernel

/-- ErrorsChangeOnlyStatus: CMP straight after reset. -/
theorem witness_command_error :
    State.reset.touched = false ∧ State.reset.status.err = none ∧
    ∃ t, exec .cmp State.reset = .next t ∧ t.status.err = some .emptyImage :=
  ⟨rfl, rfl, next_of_after (fun t => t.status.err) (by decide)⟩

/-- FourCommandsNeverFail, for each of the four. -/
theorem witness_four_commands :
    ∀ i ∈ [Instr.dimeq, .ident, .yiq, .blendw], ∃ t, exec i State.reset = .next t ∧ t.busy = false := by
  intro i hi
  refine next_of_after State.busy ?_
  fin_cases hi <;> decide +kernel

/-- The bytes of `onePixel`. -/
def pixelBytes (k : Nat) : Byte := [0x12#8, 0x34#8, 0x56#8, 0x78#8, 0x9A#8, 0xBC#8, 0xDE#8, 0xF0#8].getD k 0#8

/-- CanonicalReadOfEveryModel: a readable pixel of each of the ten models, the palette entry of the last, and a palette
without it. -/
theorem witness_every_model :
    (∀ m : Fin 10, ((onePixel (BitVec.ofNat 4 m.val)).desc .a).model.toNat = m.val ∧
      ∀ k ∈ neededBytes ((onePixel (BitVec.ofNat 4 m.val)).desc .a).model.toNat,
        readByte (onePixel (BitVec.ofNat 4 m.val)).mem (imgOf .a) (0 + k) = some (pixelBytes k)) ∧
    cellGet (palOf (onePixel 9).mem .a) (0x12#8).toNat = some 0x11223344#32 ∧
    cellGet (palOf ({ (onePixel 9).mem with palA := [] } : Spaces) .a) (0x12#8).toNat = none := by decide

/-- The pixel of `onePixel` with its bytes from offset n on unwritten. -/
def cutPixel (model : BitVec 4) (n : Nat) : State :=
  { onePixel model with mem := { (onePixel model).mem with imgA := (onePixel model).mem.imgA.take n } }

/-- CanonicalReadOfEveryModel, its stops: for every model the first needed byte unwritten, for a 16-bit model the last one,
6, unwritten and the ones before it written; the same for the raw pixel, whose last byte is 7. -/
theorem witness_unwritten_pixel :
    (∀ m : Fin 10, 0 ∈ neededBytes ((cutPixel (BitVec.ofNat 4 m.val) 0).desc .a).model.toNat ∧
      readByte (cutPixel (BitVec.ofNat 4 m.val) 0).mem (imgOf .a) (0 + 0) = none) ∧
    6 ∈ neededBytes ((cutPixel 6 6).desc .a).model.toNat ∧
    (∀ j ∈ neededBytes ((cutPixel 6 6).desc .a).model.toNat, j < 6 →
      readByte (cutPixel 6 6).mem (imgOf .a) (0 + j) = some (pixelBytes j)) ∧
    readByte (cutPixel 6 6).mem (imgOf .a) (0 + 6) = none ∧
    7 < bytesPerPixel ((cutPixel 6 7).desc .a).model ∧
    (∀ j, j < 7 → readByte (cutPixel 6 7).mem (imgOf .a) (0 + j) = some (pixelBytes j)) ∧
    readByte (cutPixel 6 7).mem (imgOf .a) (0 + 7) = none := by decide

/-- PosWritesTheOffset and RdpixPacksTheCanonicalColour: a passing precheck with a readable pixel, one with an unwritten
pixel, and a failing one. -/
theorem witness_pixel_operand :
    edge.touched = false ∧ precheck edge ⟨[.a], false, false, some .a, none⟩ = none ∧
    (canonPixel edge .a ⟨3, 2⟩).toOption = some ⟨128#8, 128#8, 128#8, 255#8⟩ ∧
    precheck (cutPixel 6 6) ⟨[.a], false, false, some .a, none⟩ = none ∧
    (canonPixel (cutPixel 6 6) .a ⟨0, 0⟩).toOption = none ∧
    precheck (atPoint 7 4 edge) ⟨[.a], false, false, some .a, none⟩ = some (.badParam .pointP) := by decide +kernel

/-- Two buffers of one byte, of which the first n of A and none of B are written. -/
def halfWritten (n : Nat) : State :=
  { tiny with mem := { Spaces.unwritten with imgA := tiny.mem.imgA.take n } }

/-- IdentComparesWholeArrays, equal lengths: the bytes of both arrays are written, the one of A is not, the one of B
is not. -/
theorem witness_ident_bytes :
    tiny.descA.len = tiny.descB.len ∧ (∀ k, k < tiny.descA.len.toNat →
      (readByte tiny.mem .imgA k).isSome = true ∧ (readByte tiny.mem .imgB k).isSome = true) ∧
    (halfWritten 0).descA.len = (halfWritten 0).descB.len ∧ 0 < (halfWritten 0).descA.len.toNat ∧
    readByte (halfWritten 0).mem .imgA 0 = none ∧
    (∀ j, j < (halfWritten 1).descA.len.toNat → readByte (halfWritten 1).mem .imgA j = some 5#8) ∧
    readByte (halfWritten 1).mem .imgB 0 = none := by decide

/-- BlendIsExactAtTheEnds: both alphas. -/
theorem witness_blend_ends : (⟨12#8, 34#8, 56#8, 255#8⟩ : Color).a = 255#8 ∧ (⟨12#8, 34#8, 56#8, 0#8⟩ : Color).a = 0#8 := by
  decide

/-- GrayblWritesTheGray: ALPHA at both ends of its range, and a NaN outside it. -/
theorem witness_alpha_range :
    (fle 0#64 0#64 = true ∧ fle 0#64 0x3FF0000000000000#64 = true) ∧
    (fle 0#64 0x3FF0000000000000#64 = true ∧ fle 0x3FF0000000000000#64 0x3FF0000000000000#64 = true) ∧
    ¬(fle 0#64 0x7FF8000000000000#64 = true ∧ fle 0x7FF8000000000000#64 0x3FF0000000000000#64 = true) := by
  decide +kernel

/-- RoundingIsToNearestEven: 1 unit and its half, a tie whose other side is 0x1. -/
theorem witness_rounding_tie :
    fIsNaN 0x1#64 = false ∧ fIsInf 0x1#64 = false ∧ fSign 0x1#64 = false ∧ fIsInf (fRound false 1 2) = false ∧
    natDist 1 (fMag (fRound false 1 2) * 2) = natDist 1 (fMag 0x1#64 * 2) ∧ 0x1#64 ≠ fRound false 1 2 := by
  decide +kernel

/-- RoundingIsToNearestEven: 0.1 and -0.3 under each of the four operations. -/
theorem witness_four_operations :
    isFinite 0x3FB999999999999A#64 ∧ isFinite 0xBFD3333333333333#64 ∧
    fIsInf (fadd 0x3FB999999999999A 0xBFD3333333333333) = false ∧
    fIsInf (fsub 0x3FB999999999999A 0xBFD3333333333333) = false ∧
    fIsInf (fmul 0x3FB999999999999A 0xBFD3333333333333) = false ∧ fIsZero 0xBFD3333333333333#64 = false ∧
    fIsInf (fdiv 0x3FB999999999999A 0xBFD3333333333333) = false :=
  ⟨⟨by decide, by decide⟩, ⟨by decide, by decide⟩, by decide +kernel⟩

/-- CdeltaWritesTheDelta and AaWritesTheVerdict: passing and failing prechecks, readable pixels. -/
theorem witness_two_buffers :
    edge.touched = false ∧ State.reset.touched = false ∧
    precheck edge ⟨[.a, .b], false, false, some .a, some .b⟩ = none ∧
    (canonPixel edge .a ⟨3, 2⟩).toOption = some ⟨128#8, 128#8, 128#8, 255#8⟩ ∧
    (canonPixel edge .b ⟨0, 0⟩).toOption = some ⟨0#8, 0#8, 0#8, 255#8⟩ ∧
    precheck State.reset ⟨[.a, .b], false, false, some .a, some .b⟩ = some .emptyImage ∧
    precheck edge ⟨[.a, .b], true, false, some .a, none⟩ = none ∧
    (antialiased edge .a .b ⟨3, 2⟩).toOption = some true ∧
    precheck State.reset ⟨[.a, .b], true, false, some .a, none⟩ = some .emptyImage := by decide +kernel

/-- DeltaBySteps: equal colours, the first brighter, the first not brighter. -/
theorem witness_delta_cases :
    (⟨9#8, 9#8, 9#8, 255#8⟩ : Color) ≠ ⟨5#8, 5#8, 5#8, 255#8⟩ ∧
    flt (yOf (opaqueRgb ⟨5#8, 5#8, 5#8, 255#8⟩)) (yOf (opaqueRgb ⟨9#8, 9#8, 9#8, 255#8⟩)) = true ∧
    flt (yOf (opaqueRgb ⟨9#8, 9#8, 9#8, 255#8⟩)) (yOf (opaqueRgb ⟨5#8, 5#8, 5#8, 255#8⟩)) = false := by
  decide +kernel

/-- MaxDeltaIsMonotone: 0.05 and 1.0. -/
theorem witness_thresholds :
    fle 0#64 0x3FA999999999999A#64 = true ∧ fle 0x3FA999999999999A#64 0x3FF0000000000000#64 = true ∧
    fle 0x3FF0000000000000#64 0x3FF0000000000000#64 = true := by decide +kernel

/-- NeighboursAreTheClampedBlock and BumpIsOneOnTheBorder at a corner and inside; ScanOrderIsColumnFirst at both ends of its
range in a 7×5 image. -/
theorem witness_inside_points :
    edge.descA.inside ⟨0, 0⟩ = true ∧ edge.descA.inside ⟨6, 4⟩ = true ∧ edge.descA.inside ⟨3, 2⟩ = true ∧
    0 + 2 < edge.descA.w.toNat ∧ 0 + 2 < edge.descA.h.toNat ∧
    4 + 2 < edge.descA.w.toNat ∧ 2 + 2 < edge.descA.h.toNat := by decide

/-- SameNeighborsCounts and SamenbTestsTheCount: the raw bytes of a window are readable; a failing precheck. -/
theorem witness_raw_window :
    edge.touched = false ∧ 1 ≤ 3 ∧ (∀ q ∈ (⟨3, 2⟩ : Point) :: neighbours (edge.desc .a) ⟨3, 2⟩,
      (rawPixel edge .a q).toOption =
        some [if q = ⟨3, 2⟩ then 128#8 else if q.x < 3 then 0#8 else 255#8]) ∧
    precheck edge ⟨[.a], false, false, some .a, none⟩ = none ∧
    precheck State.reset ⟨[.a], false, false, some .a, none⟩ = some .emptyImage := by decide +kernel

/-- The brightness differences of the neighbours of p in buffer A, 0 where there is none. -/
def dyAt (s : State) (p q : Point) : F64 := ((delta s .a p .a q true).toOption).getD 0

/-- AntialiasedIsFalseWhenFlatOrOneSided: flat (vector A4 at (1,1)), and one-sided both ways (a 2×1 image). -/
theorem witness_flat_and_one_sided :
    (∀ q ∈ neighbours (edge.desc .a) ⟨1, 1⟩, (delta edge .a ⟨1, 1⟩ .a q true).toOption = some (dyAt edge ⟨1, 1⟩ q)) ∧
    2 < bump (edge.desc .a) ⟨1, 1⟩ +
      (neighbours (edge.desc .a) ⟨1, 1⟩).countP (fun q => feq (dyAt edge ⟨1, 1⟩ q) cZero) ∧
    (∀ x ∈ [0, 1], ∀ q ∈ neighbours ((pair 2 1 0 [0, 255] [0, 0]).desc .a) ⟨x, 0⟩,
      (delta (pair 2 1 0 [0, 255] [0, 0]) .a ⟨x, 0⟩ .a q true).toOption =
        some (dyAt (pair 2 1 0 [0, 255] [0, 0]) ⟨x, 0⟩ q)) ∧
    (∀ q ∈ neighbours ((pair 2 1 0 [0, 255] [0, 0]).desc .a) ⟨1, 0⟩,
      flt (dyAt (pair 2 1 0 [0, 255] [0, 0]) ⟨1, 0⟩ q) cZero = false) ∧
    (∀ q ∈ neighbours ((pair 2 1 0 [0, 255] [0, 0]).desc .a) ⟨0, 0⟩,
      flt cZero (dyAt (pair 2 1 0 [0, 255] [0, 0]) ⟨0, 0⟩ q) = false) := by decide +kernel

/-- AntialiasedNeedsTwoExtrema: vector A1. -/
theorem witness_antialiased_true : antialiased edge .a .b ⟨3, 2⟩ = .ok true := by
  have h : (antialiased edge .a .b ⟨3, 2⟩).toOption = some true := by decide +kernel
  cases hv : antialiased edge .a .b ⟨3, 2⟩ <;> simp_all [Except.toOption]

/-- What the exact part of AntialiasedNeedsTwoExtrema asks of lo and hi, the neighbours before each of them named. -/
theorem extrema_of_lists {s : State} {p lo hi : Point} {bl al bh ah : List Point} {dy : Point → F64}
    (h : neighbours (s.desc .a) p = bl ++ lo :: al ∧ neighbours (s.desc .a) p = bh ++ hi :: ah ∧
      ((∀ r ∈ bl, flt (dy lo) (dy r) = true) ∧ (∀ r ∈ al, flt (dy r) (dy lo) = false)) ∧
      ((∀ r ∈ bh, flt (dy r) (dy hi) = true) ∧ (∀ r ∈ ah, flt (dy hi) (dy r) = false))) :
    firstSmallest dy (neighbours (s.desc .a) p) lo ∧ firstLargest dy (neighbours (s.desc .a) p) hi :=
  ⟨⟨bl, al, h.1, h.2.2.1⟩, ⟨bh, ah, h.2.1, h.2.2.2⟩⟩

/-- The differences around p, the flat count and the signs of lo and hi. -/
def extremaOk (s : State) (p lo hi : Point) : Bool :=
  (neighbours (s.desc .a) p).all (fun q => decide ((delta s .a p .a q true).toOption = some (dyAt s p q))) &&
  decide (bump (s.desc .a) p + (neighbours (s.desc .a) p).countP (fun q => feq (dyAt s p q) cZero) ≤ 2) &&
  flt (dyAt s p lo) cZero && flt cZero (dyAt s p hi)

/-- E1 with twenty different bright values in the columns 3 to 6, but for the gray at (3,2) of buffer A. -/
def ragged : State :=
  atPoint 3 2 (pair 7 5 0
    [0, 0, 0, 200, 201, 202, 203, 0, 0, 0, 204, 205, 206, 207, 0, 0, 0, 128, 209, 210, 211,
     0, 0, 0, 212, 213, 214, 215, 0, 0, 0, 216, 217, 218, 219]
    [0, 0, 0, 200, 201, 202, 203, 0, 0, 0, 204, 205, 206, 207, 0, 0, 0, 208, 209, 210, 211,
     0, 0, 0, 212, 213, 214, 215, 0, 0, 0, 216, 217, 218, 219])

/-- AntialiasedNeedsTwoExtrema, its exact part where lo decides: vector A1, lo = (3,1) and hi = (2,1). -/
theorem witness_lo_decides :
    extremaOk edge ⟨3, 2⟩ ⟨3, 1⟩ ⟨2, 1⟩ = true ∧
    (firstSmallest (dyAt edge ⟨3, 2⟩) (neighbours (edge.desc .a) ⟨3, 2⟩) ⟨3, 1⟩ ∧
      firstLargest (dyAt edge ⟨3, 2⟩) (neighbours (edge.desc .a) ⟨3, 2⟩) ⟨2, 1⟩) ∧
    (sameNeighbors edge .a ⟨3, 1⟩ 3).toOption = some true ∧ (sameNeighbors edge .b ⟨3, 1⟩ 3).toOption = some true :=
  ⟨by decide +kernel,
    extrema_of_lists (bl := [⟨2, 1⟩, ⟨2, 2⟩, ⟨2, 3⟩]) (al := [⟨3, 3⟩, ⟨4, 1⟩, ⟨4, 2⟩, ⟨4, 3⟩])
      (bh := []) (ah := [⟨2, 2⟩, ⟨2, 3⟩, ⟨3, 1⟩, ⟨3, 3⟩, ⟨4, 1⟩, ⟨4, 2⟩, ⟨4, 3⟩]) (by decide +kernel),
    by decide +kernel⟩

/-- The same where hi decides: the bright extremum (4,3) has no match, the dark one (2,1) has five in both images. -/
theorem witness_hi_decides :
    extremaOk ragged ⟨3, 2⟩ ⟨4, 3⟩ ⟨2, 1⟩ = true ∧
    (firstSmallest (dyAt ragged ⟨3, 2⟩) (neighbours (ragged.desc .a) ⟨3, 2⟩) ⟨4, 3⟩ ∧
      firstLargest (dyAt ragged ⟨3, 2⟩) (neighbours (ragged.desc .a) ⟨3, 2⟩) ⟨2, 1⟩) ∧
    (sameNeighbors ragged .a ⟨4, 3⟩ 3).toOption = some false ∧
    (sameNeighbors ragged .a ⟨2, 1⟩ 3).toOption = some true ∧ (sameNeighbors ragged .b ⟨2, 1⟩ 3).toOption = some true :=
  ⟨by decide +kernel,
    extrema_of_lists (bl := [⟨2, 1⟩, ⟨2, 2⟩, ⟨2, 3⟩, ⟨3, 1⟩, ⟨3, 3⟩, ⟨4, 1⟩, ⟨4, 2⟩]) (al := [])
      (bh := []) (ah := [⟨2, 2⟩, ⟨2, 3⟩, ⟨3, 1⟩, ⟨3, 3⟩, ⟨4, 1⟩, ⟨4, 2⟩, ⟨4, 3⟩]) (by decide +kernel),
    by decide +kernel⟩

/-- Image A9: 3×1 Gray8, A = 00 80 FF, B = 00 FF FF. -/
def thin : State := pair 3 1 0 [0x00, 0x80, 0xFF] [0x00, 0xFF, 0xFF]

/-- The same where neither does, vector A9: lo = (2,0), hi = (0,0). -/
theorem witness_neither_decides :
    extremaOk thin ⟨1, 0⟩ ⟨2, 0⟩ ⟨0, 0⟩ = true ∧
    (firstSmallest (dyAt thin ⟨1, 0⟩) (neighbours (thin.desc .a) ⟨1, 0⟩) ⟨2, 0⟩ ∧
      firstLargest (dyAt thin ⟨1, 0⟩) (neighbours (thin.desc .a) ⟨1, 0⟩) ⟨0, 0⟩) ∧
    (sameNeighbors thin .a ⟨2, 0⟩ 3).toOption = some false ∧ (sameNeighbors thin .a ⟨0, 0⟩ 3).toOption = some false :=
  ⟨by decide +kernel,
    extrema_of_lists (bl := [⟨0, 0⟩]) (al := []) (bh := []) (ah := [⟨2, 0⟩]) (by decide +kernel),
    by decide +kernel⟩

/-- PixelJudgesOnePixel, the test asked both ways: true the first way (A1), and false both ways (A9). -/
theorem witness_both_ways :
    (antialiased edge .a .b ⟨3, 2⟩).toOption = some true ∧ (antialiased thin .a .b ⟨1, 0⟩).toOption = some false ∧
    (antialiased thin .b .a ⟨1, 0⟩).toOption = some false := by decide +kernel

/-- PixelJudgesOnePixel: everything it asks of the state of vector X1, and a failing precheck. -/
theorem witness_pixel_judged :
    edge.touched = false ∧ precheck edge ⟨[.a, .b], true, true, some .a, none⟩ = none ∧
    (canonPixel edge .a ⟨3, 2⟩).toOption = some ⟨128#8, 128#8, 128#8, 255#8⟩ ∧
    (canonPixel edge .b ⟨3, 2⟩).toOption = some ⟨255#8, 255#8, 255#8, 255#8⟩ ∧
    (aaEither edge ⟨3, 2⟩).toOption = some true ∧
    precheck (atPoint 7 4 edge) ⟨[.a, .b], true, true, some .a, none⟩ = some (.badParam .pointP) := by
  decide +kernel

/-- HelperCommandFrame: a helper command that answers a next state. -/
theorem witness_helper_command :
    Instr.dimeq ≠ .cmp ∧ edge.touched = false ∧ ∃ t, exec .dimeq edge = .next t ∧ t.busy = false :=
  ⟨by decide, rfl, next_of_after State.busy (by decide)⟩

/-- Two buffers of unequal dimensions: 1×1 and 1×2. -/
def unequal : State := { pair 1 1 0 [5] [6] with descB := { (pair 1 1 0 [5] [6]).descB with h := 2 } }

/-- CmpDocumentGates: one empty buffer, and unequal dimensions. -/
theorem witness_document_gates :
    (pair 1 0 0 [] []).touched = false ∧ (pair 1 0 0 [] []).descA.h = 0#16 ∧
    unequal.touched = false ∧ unequal.descA.w ≠ 0#16 ∧ unequal.descA.h ≠ 0#16 ∧ unequal.descB.w ≠ 0#16 ∧
    unequal.descB.h ≠ 0#16 ∧ (unequal.descA.w ≠ unequal.descB.w ∨ unequal.descA.h ≠ unequal.descB.h) := by decide

/-- Two identical 1×1 arrays of a reserved model, vector V4. -/
def twin : State := pair 1 1 12 [7] [7]

/-- CmpIdentityFastPath: all its hypotheses. -/
theorem witness_identical :
    twin.touched = false ∧ twin.descA.w ≠ 0#16 ∧ twin.descA.h ≠ 0#16 ∧ twin.descB.w = twin.descA.w ∧
    twin.descB.h = twin.descA.h ∧ twin.descB.len = twin.descA.len ∧
    ∀ k, k < twin.descA.len.toNat → readByte twin.mem .imgA k = some 7#8 ∧ readByte twin.mem .imgB k = some 7#8 := by
  decide

/-- The precheck of CMP passes on the pair of vector M18. -/
theorem tiny_gates :
    documentGates tiny cmpChecks = none ∧ hardwareGates tiny cmpChecks = none ∧
    precheck tiny ⟨[.a, .b], true, true, none, none⟩ = none := by decide +kernel

/-- The bytes of the pair of vector M18 differ. -/
theorem tiny_differs : identicalBytes tiny = .ok false := by rfl

/-- CmpStartsItsScan: a passing precheck, and one that fails past the identity gate (vector V5). -/
theorem witness_scan_starts :
    tiny.touched = false ∧ documentGates tiny cmpChecks = none ∧ identicalBytes tiny = .ok false ∧
    precheck tiny ⟨[.a, .b], true, true, none, none⟩ = none ∧
    documentGates (pair 1 1 12 [7] [8]) cmpChecks = none ∧ identicalBytes (pair 1 1 12 [7] [8]) = .ok false ∧
    precheck (pair 1 1 12 [7] [8]) ⟨[.a, .b], true, true, none, none⟩ = some (.unsupportedFormat .a) :=
  ⟨rfl, tiny_gates.1, tiny_differs, tiny_gates.2.2, by decide, by rfl, by decide +kernel⟩

/-- The scan of the pair of vector M18, begun. -/
def started : State := startScan tiny

/-- CMP begins that scan. -/
theorem tiny_starts : exec .cmp tiny = .next started := by
  unfold exec execCmp
  rw [tiny_gates.1, tiny_differs]
  change Host.Outcome.next (cmpPastIdentity tiny) = _
  unfold cmpPastIdentity
  rw [tiny_gates.2.1]
  rfl

/-- Its one pixel has a verdict. -/
theorem started_judgeable : judgeable started := by
  intro p hp
  have hx : p.x < 1 ∧ p.y < 1 := by
    have := hp
    simp only [Desc.inside, Bool.and_eq_true, decide_eq_true_eq] at this
    exact this
  have h : p = ⟨0, 0⟩ := by
    cases p
    simp only [Point.mk.injEq]
    exact ⟨Nat.lt_one_iff.mp hx.1, Nat.lt_one_iff.mp hx.2⟩
  have hj : (judge started ⟨0, 0⟩).toOption.isSome = true := by decide +kernel
  rw [h]
  cases hv : judge started ⟨0, 0⟩ with
  | ok v => exact ⟨v, rfl⟩
  | error f => rw [hv] at hj; cases hj

/-- EveryScheduleGivesTheSameResult and EveryComparisonEnds: a whole comparison, with choices of a lane to come. -/
theorem witness_comparison :
    exec .cmp tiny = .next started ∧ started.engine = .scanning ∧ tiny.touched = false ∧ judgeable started ∧
    onlyLaneChoices tiny.inbox ∧ onlyLaneChoices [.engine 0, .engine 3] ∧
    ∃ t, runSteps 4 started = .next t ∧ t.busy = false := by
  refine ⟨tiny_starts, by decide +kernel, rfl, started_judgeable, List.forall_mem_nil _, ?_,
    next_of_after State.busy (by decide +kernel)⟩
  intro e he
  fin_cases he
  · exact ⟨0, rfl⟩
  · exact ⟨3, rfl⟩

/-- A scan of a 1×1 image with lane 0 as given, its event to come, rows handed out up to `rowNext`. -/
def laneState (rowNext : Nat) (lanes : LaneTable) : State :=
  { tiny with engine := .scanning, scan := { rowNext := rowNext, lanes := lanes }, inbox := [.engine 0] }

/-- LaneStepsByTheirRules: a free lane with a row left, a lane at its last pixel, a lane past it. -/
theorem witness_lane_steps :
    isLane 0 = true ∧ (laneState 0 []).engine = .scanning ∧ (laneState 0 []).inbox = [.engine 0] ∧
    LaneTable.wf (laneState 0 []).scan.lanes = true ∧
    ((laneState 0 []).lane 0).active = false ∧ (laneState 0 []).scan.rowNext < (laneState 0 []).descA.h.toNat ∧
    LaneTable.wf (laneState 1 [(0, ⟨true, 0, 0, 0⟩)]).scan.lanes = true ∧
    ((laneState 1 [(0, ⟨true, 0, 0, 0⟩)]).lane 0) = ⟨true, 0, 0, 0⟩ ∧
    (judge (laneState 1 [(0, ⟨true, 0, 0, 0⟩)]) ⟨0, 0⟩).toOption.isSome = true ∧
    LaneTable.wf (laneState 1 [(0, ⟨true, 0, 1, 1⟩)]).scan.lanes = true ∧
    ((laneState 1 [(0, ⟨true, 0, 1, 1⟩)]).lane 0) = ⟨true, 0, 1, 1⟩ ∧
    1 = (laneState 1 [(0, ⟨true, 0, 1, 1⟩)]).descA.w.toNat := by
  refine ⟨rfl, rfl, rfl, rfl, rfl, by decide, ?_, rfl, by decide +kernel, ?_, rfl, rfl⟩ <;>
    simp [laneState, LaneTable.wf, cellsWithin, Config.nLanes, Lane.clear]

/-- The scan of the pair of vector M18 with every row handed out, lane 0 free with a tally, no event to come. -/
def joinState : State := { laneState 1 [(0, ⟨false, 0, 1, 1⟩)] with inbox := [] }

/-- JoinCompletesTheComparison: all its hypotheses. -/
theorem witness_join :
    joinState.engine = .scanning ∧ joinState.touched = false ∧ joinState.scan.rowNext = joinState.descA.height ∧
    (∀ e ∈ joinState.scan.lanes, e.2.active = false) ∧ joinState.inbox = [] := by decide

/-- StepKeepsTheInvariant and OutBeyondTheImageIsUntouched: a scanning state that has the invariant and a next step. -/
theorem witness_invariant :
    Inv (laneState 0 []) ∧ (∃ t, step (laneState 0 []) = .next t ∧ t.busy = true) ∧
    (∃ t, pdeStep (some 0) (laneState 0 []) = .next t ∧ t.busy = true) ∧
    4 * ((laneState 0 []).descA.w.toNat * (laneState 0 []).descA.h.toNat) ≤ 4 := by
  refine ⟨⟨⟨fun sp => ?_, fun sel => ?_⟩, ⟨fun _ => ⟨rfl, rfl, rfl⟩, fun h => ?_⟩, fun w h => ?_, rfl, fun _ => ⟨Nat.zero_le _, ?_, ?_⟩⟩,
    next_of_after State.busy (by decide), next_of_after State.busy (by decide), by decide⟩
  · cases sp <;> decide
  · cases sel <;> decide
  · cases h
  · cases h
  · intro i h; cases h
  · intro i j h; cases h

/-- PdeNeverWritesItsInputs, AltColourWithoutAltValidHasNoEffect: a step that goes on, and one that faults. -/
theorem witness_pde_steps :
    (∃ t, pdeStep none (latchedWith 0x3 [] tiny) = .next t ∧ t.busy = false) ∧
    (latchedWith 0x3 [] tiny).opts.flags.altValid = false ∧
    (latchedWith 0x4 [] { tiny with mem := Spaces.unwritten }).opts.flags.altValid = false ∧
    pdeStep none (latchedWith 0x4 [] { tiny with mem := Spaces.unwritten }) = .fault (.unwrittenByte .a 0) :=
  ⟨next_of_after State.busy (by decide), rfl, rfl, by rfl⟩

/-- ForbiddenAccessStaysInTheCommand: a running command and cells of the spaces, then an unmarked step that goes on, one
that ends its command, and one that faults. -/
theorem witness_forbidden_access :
    (latchedWith 0x1 [] tiny).busy = true ∧ 2 ^ 40 - 1 < spaceSize .imgA ∧ 255 < palSize ∧
    (latchedWith 0x1 [] tiny).touched = false ∧
    (∃ u, pdeStep (some 0) (laneState 0 []) = .next u ∧ u.busy = true) ∧
    (∃ u, pdeStep none (latchedWith 0x3 [] tiny) = .next u ∧ u.busy = false) ∧
    pdeStep none (latchedWith 0x4 [] { tiny with mem := Spaces.unwritten }) = .fault (.unwrittenByte .a 0) :=
  ⟨rfl, by decide, by decide, rfl, next_of_after State.busy (by decide), next_of_after State.busy (by decide), by rfl⟩

end Sys2Proof.Tests
end

section
/-! The state invariant: it holds after reset and every step keeps it (O53, O54). Each part of `Inv` has its own
preservation lemmas; the cases of a step are those of `Laws/Exec.lean`. -/

namespace Sys2Proof.Machine

/-! ### The spaces stay canonical -/

/-- Only OUT is replaced, by a canonical table. -/
theorem memOk_of_out {s t : State} {m : Memory} (hs : memOk s) (ht : t.mem = { s.mem with out := m })
    (hm : Memory.wf outSize m = true) : memOk t := by
  obtain ⟨hsp, hpal⟩ := hs
  refine ⟨fun sp => ?_, fun sel => ?_⟩
  · rw [ht]
    cases sp with
    | imgA => exact hsp .imgA
    | imgB => exact hsp .imgB
    | out => exact hm
  · rw [ht]
    cases sel with
    | a => exact hpal .a
    | b => exact hpal .b

theorem memOk_congr {s t : State} (hs : memOk s) (ht : t.mem = s.mem) : memOk t :=
  memOk_of_out hs ht (hs.1 .out)

theorem memOk_complete {s : State} (e : Option CmdError) (hs : memOk s) : memOk (complete e s) := by
  unfold complete
  split
  · exact memOk_of_out hs rfl (fillBytes_wf _ _ _ (hs.1 .out) (outBytes_le_outSize s))
  · exact memOk_congr hs rfl

theorem memOk_startScan {s : State} (hs : memOk s) : memOk (startScan s) := by
  unfold startScan zeroFill
  split
  · exact memOk_of_out hs rfl (fillBytes_wf _ _ _ (hs.1 .out) (outBytes_le_outSize s))
  · exact memOk_congr hs rfl

/-- The four bytes of a pixel inside A's rectangle lie in OUT (`20_memory.md` R52, R79). -/
theorem outOffset_add_four_le {s : State} {p : Point} (hx : p.x < s.descA.width) (hy : p.y < s.descA.height) :
    outOffset s p + 4 ≤ outSize := by
  have hrow : (p.y + 1) * s.descA.width ≤ s.descA.height * s.descA.width := Nat.mul_le_mul_right _ hy
  have hout : 4 * (s.descA.width * s.descA.height) ≤ outSize := outBytes_le_outSize s
  rw [Nat.mul_comm s.descA.height, Nat.add_mul] at hrow
  unfold outOffset
  omega

theorem memOk_applyVerdict {s : State} {i : Nat} (v : Verdict) (hs : memOk s)
    (hx : (s.lane i).x < s.descA.width) (hy : (s.lane i).y < s.descA.height) : memOk (applyVerdict s i v) := by
  unfold applyVerdict
  split
  · exact memOk_of_out hs rfl (writeBytes_wf _ _ _ (hs.1 .out) (outOffset_add_four_le (p := lanePoint _) hx hy))
  · exact memOk_congr hs rfl

theorem memOk_setSpace {s t : State} {sp : ByteSpace} {off : Nat} {v : Byte} (hs : memOk s)
    (hoff : off < spaceSize sp) (ht : t.mem = setSpace s.mem sp (cellPut (spaceOf s.mem sp) off v)) : memOk t := by
  refine ⟨fun sp' => ?_, fun sel => ?_⟩
  · rw [ht]
    by_cases h : sp' = sp
    · subst h
      rw [spaceOf_setSpace_same]
      exact cellsWithin_cellPut v (hs.1 sp') (Nat.zero_le _) hoff
    · rw [spaceOf_setSpace_other _ _ h]
      exact hs.1 sp'
  · rw [ht, palOf_setSpace]
    exact hs.2 sel

theorem memOk_setPal {s t : State} {sel : Sel} {i : Nat} {v : ColorWord} (hs : memOk s) (hi : i < palSize)
    (ht : t.mem = setPal s.mem sel (cellPut (palOf s.mem sel) i v)) : memOk t := by
  refine ⟨fun sp => ?_, fun sel' => ?_⟩
  · rw [ht, spaceOf_setPal]
    exact hs.1 sp
  · rw [ht]
    by_cases h : sel' = sel
    · subst h
      rw [palOf_setPal_same]
      exact cellsWithin_cellPut v (hs.2 sel') (Nat.zero_le _) hi
    · rw [palOf_setPal_other _ _ h]
      exact hs.2 sel'

/-! ### The handshake -/

theorem busy_congr {s t : State} (h : t.engine = s.engine) : t.busy = s.busy := by
  unfold State.busy
  rw [h]

theorem handshakeOk_congr {s t : State} (hs : handshakeOk s) (he : t.engine = s.engine) (hst : t.status = s.status)
    (ht : t.touched = s.touched) : handshakeOk t := by
  unfold handshakeOk
  rw [busy_congr he, hst, ht]
  exact hs

@[simp] theorem busy_startScan (s : State) : (startScan s).busy = true := by
  unfold State.busy
  rw [startScan_engine]

/-- A running command that goes on to its scan keeps the handshake. -/
theorem handshakeOk_startScan {s : State} (hs : handshakeOk s) (hb : s.busy = true) : handshakeOk (startScan s) := by
  refine ⟨fun _ => ?_, fun _ => busy_startScan s⟩
  rw [startScan_status]
  exact hs.1 hb

/-! ### The scan position -/

/-- Every listed key of a canonical table is below its size. -/
theorem key_lt_of_mem {α : Type} {size low : Nat} {m : List (Nat × α)} {e : Nat × α}
    (hm : cellsWithin size low m = true) (he : e ∈ m) : e.1 < size := by
  induction m generalizing low with
  | nil => cases he
  | cons c m ih =>
    obtain ⟨_, hlt, hrest⟩ := (cellsWithin_cons ..).1 hm
    rcases List.mem_cons.1 he with h | h
    · rw [h]
      exact hlt
    · exact ih hrest h

theorem isLane_of_mem {t : LaneTable} {e : Nat × Lane} (ht : LaneTable.wf t = true) (he : e ∈ t) :
    isLane e.1 = true := by
  unfold LaneTable.wf at ht
  exact (isLane_iff _).2 (key_lt_of_mem (Bool.and_eq_true_iff.1 ht).1 he)

theorem isLane_of_firstActive {t : LaneTable} {i : Nat} (ht : LaneTable.wf t = true)
    (h : firstActive t = some i) : isLane i = true := by
  obtain ⟨l, hl, _⟩ := firstActive_some h
  exact isLane_of_mem ht hl

theorem lane_setLane {s : State} (hs : LaneTable.wf s.scan.lanes = true) (i j : Nat) (l : Lane) :
    (setLane s i l).lane j = if j = i then l else s.lane j := by
  unfold LaneTable.wf at hs
  exact laneGet_lanePut (Bool.and_eq_true_iff.1 hs).1 i j l

theorem setLane_wf {s : State} {i : Nat} {l : Lane} (hs : LaneTable.wf s.scan.lanes = true) (hi : isLane i = true) :
    LaneTable.wf (setLane s i l).scan.lanes = true := lanePut_wf l hs hi

/-- Lane i may be replaced by a lane that is idle, or in a handed-out row of its own at a column 0..W. -/
theorem scanLegal_setLane {s : State} {i : Nat} {l : Lane} (hwf : LaneTable.wf s.scan.lanes = true)
    (hs : scanLegal s)
    (hl : l.active = true → (l.y < s.scan.rowNext ∧ l.x ≤ s.descA.width) ∧
      ∀ j, j ≠ i → (s.lane j).active = true → (s.lane j).y ≠ l.y) : scanLegal (setLane s i l) := by
  obtain ⟨hrow, hin, huniq⟩ := hs
  refine ⟨hrow, fun j => ?_, fun j k => ?_⟩
  · rw [lane_setLane hwf]
    split
    · exact fun ha => (hl ha).1
    · exact hin j
  · rw [lane_setLane hwf, lane_setLane hwf]
    split <;> split
    · intros; subst_vars; rfl
    · exact fun ha hk hy => absurd hy.symm ((hl ha).2 k ‹_› hk)
    · exact fun hj ha hy => absurd hy ((hl ha).2 j ‹_› hj)
    · exact huniq j k

/-- A lane keeps its row while it is active. -/
theorem scanLegal_setLane_sameRow {s : State} {i : Nat} {l : Lane} (hwf : LaneTable.wf s.scan.lanes = true)
    (hs : scanLegal s) (hy : l.y = (s.lane i).y)
    (hl : l.active = true → (s.lane i).active = true ∧ l.x ≤ s.descA.width) : scanLegal (setLane s i l) := by
  refine scanLegal_setLane hwf hs fun ha => ?_
  obtain ⟨_, hin, huniq⟩ := hs
  obtain ⟨hi, hx⟩ := hl ha
  rw [hy]
  exact ⟨⟨(hin i hi).1, hx⟩, fun j hne hj hrow => hne (huniq j i hj hi hrow)⟩

theorem scanLegal_congr {s t : State} (hs : scanLegal s) (hd : t.descA = s.descA) (hsc : t.scan = s.scan) :
    scanLegal t := by
  unfold scanLegal State.lane
  rw [hd, hsc]
  exact hs

/-- DISPATCH gives lane i a row that no lane has, since every row in work is below ROWNEXT. -/
theorem scanLegal_dispatch {s : State} {i : Nat} (hwf : LaneTable.wf s.scan.lanes = true) (hs : scanLegal s)
    (h : canDispatch s i = true) : scanLegal (dispatch s i) := by
  obtain ⟨hrow, hin, huniq⟩ := hs
  have hnext : s.scan.rowNext < s.descA.height := of_decide_eq_true (Bool.and_eq_true_iff.1 h).1
  refine scanLegal_setLane hwf ⟨hnext, fun j hj => ?_, huniq⟩ fun _ => ⟨⟨Nat.lt_succ_self _, Nat.zero_le _⟩, ?_⟩
  · exact ⟨Nat.lt_succ_of_lt (hin j hj).1, (hin j hj).2⟩
  · exact fun j _ hj => Nat.ne_of_lt (hin j hj).1

theorem scanLegal_applyVerdict {s : State} {i : Nat} (v : Verdict) (hwf : LaneTable.wf s.scan.lanes = true)
    (hs : scanLegal s) (h : canPixelStep s i = true) : scanLegal (applyVerdict s i v) := by
  obtain ⟨hact, hx⟩ := Bool.and_eq_true_iff.1 h
  have hstep : scanLegal (setLane s i (laneAfter (s.lane i) v.cls)) :=
    scanLegal_setLane_sameRow hwf hs rfl fun _ => ⟨hact, of_decide_eq_true hx⟩
  unfold applyVerdict
  split
  · exact scanLegal_congr hstep rfl rfl
  · exact hstep

theorem scanLegal_retire {s : State} {i : Nat} (hwf : LaneTable.wf s.scan.lanes = true) (hs : scanLegal s) :
    scanLegal (retire s i) :=
  scanLegal_setLane_sameRow hwf hs rfl fun h => nomatch h

/-- With no row handed out and every lane clear, the scan position is legal. -/
theorem scanLegal_clear {s : State} (h : s.scan = Scan.clear) : scanLegal s := by
  have hidle : ∀ i, (s.lane i).active ≠ true := by
    intro i
    unfold State.lane
    rw [h]
    exact Bool.false_ne_true
  refine ⟨?_, fun i hi => absurd hi (hidle i), fun i _ hi => absurd hi (hidle i)⟩
  rw [h]
  exact Nat.zero_le _

/-! ### The invariant -/

theorem Inv.of_same {s t : State} (hs : Inv s) (hmem : t.mem = s.mem) (heng : t.engine = s.engine)
    (hst : t.status = s.status) (htouch : t.touched = s.touched) (hscan : t.scan = s.scan)
    (hdesc : t.descA = s.descA) : Inv t := by
  obtain ⟨hm, hh, hl, hw, hs⟩ := hs
  refine ⟨memOk_congr hm hmem, handshakeOk_congr hh heng hst htouch, ?_, ?_, ?_⟩
  · unfold latchedLegal
    rw [heng]
    exact hl
  · rw [hscan]
    exact hw
  · rw [heng]
    exact fun h => scanLegal_congr (hs h) hdesc hscan

/-- An idle PDE without a mark has the invariant if its spaces and its lane table are canonical. -/
theorem Inv.of_idle {s : State} (hm : memOk s) (hw : LaneTable.wf s.scan.lanes = true) (he : s.engine = .idle)
    (ht : s.touched = false) : Inv s := by
  refine ⟨hm, ⟨fun h => ?_, fun h => ?_⟩, fun w h => ?_, hw, fun h => ?_⟩
  · rw [(busy_eq_false_iff s).2 he] at h
    cases h
  · rw [ht] at h
    cases h
  · rw [he] at h
    cases h
  · rw [he] at h
    cases h

/-- The end of a command, with an error or without. -/
theorem Inv.complete {s : State} (e : Option CmdError) (hm : memOk s) (hw : LaneTable.wf s.scan.lanes = true) :
    Inv (complete e s) :=
  .of_idle (memOk_complete e hm) (by rw [complete_scan]; exact hw) (complete_engine e s) (complete_touched e s)

/-- The mark can be set only while a command runs, so an idle PDE has none. -/
theorem Inv.untouched_of_idle {s : State} (hs : Inv s) (hb : s.busy = false) : s.touched = false := by
  obtain ⟨_, ⟨_, htouch⟩, _⟩ := hs
  cases ht : s.touched with
  | false => rfl
  | true => rw [htouch ht] at hb; cases hb

/-- After reset the spaces are empty and the PDE is idle. -/
theorem Inv.reset : Inv State.reset := .of_idle ⟨reset_spaces_wf, reset_palettes_wf⟩ rfl rfl rfl

/-! ### The PDE keeps the invariant -/

theorem Inv.startScan {s : State} (hs : Inv s) (hb : s.busy = true) : Inv (startScan s) := by
  obtain ⟨hm, hh, _, _, _⟩ := hs
  refine ⟨memOk_startScan hm, handshakeOk_startScan hh hb, fun w h => ?_, ?_, fun _ => ?_⟩
  · rw [startScan_engine] at h
    cases h
  · rw [startScan_scan]
    rfl
  · exact scanLegal_clear (startScan_scan s)

theorem Inv.exec {s t : State} {i : Instr} (hs : Inv s) (hb : s.busy = true) (h : exec i s = .next t) : Inv t := by
  have hend : ∀ (r : State) (e : Option CmdError), r.mem = s.mem → r.scan = s.scan → Inv (Machine.complete e r) := by
    obtain ⟨hm, _, _, hw, _⟩ := hs
    exact fun r e hmem hscan => .complete e (memOk_congr hm hmem) (by rw [hscan]; exact hw)
  by_cases hi : i = .cmp
  · subst hi
    rcases execCmp_next_cases h with ⟨e, _, rfl⟩ | ⟨_, _, rfl⟩ | ⟨_, _, e, _, rfl⟩ | ⟨_, _, _, rfl⟩
    · exact hend s _ rfl rfl
    · exact hend _ _ rfl rfl
    · exact hend s _ rfl rfl
    · exact hs.startScan hb
  · rcases execHelper_next_cases hi h with ⟨e, rfl⟩ | ⟨r, rfl⟩
    · exact hend s _ rfl rfl
    · exact hend _ _ rfl rfl

/-- A step of the scan that stays in the scan: what is left to show is the spaces, the lanes and the scan position. -/
theorem Inv.of_scanning {s t : State} (hs : Inv s) (he : s.engine = .scanning) (heng : t.engine = s.engine)
    (hst : t.status = s.status) (htouch : t.touched = s.touched) (hm : memOk t)
    (hw : LaneTable.wf t.scan.lanes = true) (hl : scanLegal t) : Inv t := by
  obtain ⟨_, hh, _, _, _⟩ := hs
  refine ⟨hm, handshakeOk_congr hh heng hst htouch, fun w h => ?_, hw, fun _ => hl⟩
  rw [heng, he] at h
  cases h

@[simp] theorem applyVerdict_lanes (s : State) (i : Nat) (v : Verdict) :
    (applyVerdict s i v).scan.lanes = lanePut s.scan.lanes i (laneAfter (s.lane i) v.cls) := by
  unfold applyVerdict
  split <;> rfl

theorem Inv.laneMove {s t : State} {i : Nat} (hs : Inv s) (he : s.engine = .scanning) (hi : isLane i = true)
    (h : laneMove s i = .ok t) : Inv t := by
  have hall := hs
  obtain ⟨hm, _, _, hw, hscan⟩ := hs
  have hlegal := hscan he
  rcases laneMove_ok_cases h with ⟨hd, rfl⟩ | ⟨hp, v, _, rfl⟩ | ⟨_, rfl⟩ | ⟨_, _, _, rfl⟩
  · exact hall.of_scanning he rfl rfl rfl (memOk_congr hm rfl) (setLane_wf hw hi) (scanLegal_dispatch hw hlegal hd)
  · obtain ⟨hact, hx⟩ := Bool.and_eq_true_iff.1 hp
    obtain ⟨hrow, hin, _⟩ := hlegal
    have hy := Nat.lt_of_lt_of_le (hin i hact).1 hrow
    refine hall.of_scanning he (applyVerdict_engine ..) (applyVerdict_status ..) (applyVerdict_touched ..)
      (memOk_applyVerdict v hm (of_decide_eq_true hx) hy) ?_ (scanLegal_applyVerdict v hw (hscan he) hp)
    rw [applyVerdict_lanes]
    exact lanePut_wf _ hw hi
  · exact hall.of_scanning he rfl rfl rfl (memOk_congr hm rfl) (setLane_wf hw hi) (scanLegal_retire hw hlegal)
  · exact hall

theorem Inv.scanStep {s t : State} {pick : Option Nat} (hs : Inv s) (he : s.engine = .scanning)
    (h : scanStep pick s = .ok t) : Inv t := by
  have hall := hs
  obtain ⟨hm, _, _, hw, _⟩ := hs
  rcases scanStep_ok_cases h with ⟨i, hmove, hi | hi⟩ | ⟨_, rfl⟩ | ⟨_, rfl⟩
  · exact hall.laneMove he hi hmove
  · exact hall.laneMove he (isLane_of_firstActive hw hi) hmove
  · exact .complete _ (memOk_congr hm rfl) hw
  · exact hall

theorem Inv.pdeStep {s t : State} {pick : Option Nat} (hs : Inv s) (h : pdeStep pick s = .next t) : Inv t := by
  have hall := hs
  obtain ⟨hm, _, _, hw, _⟩ := hs
  rcases pdeStep_next_cases h with ⟨_, rfl⟩ | ⟨w, i, hw, _, h⟩ | ⟨_, _, _, _, rfl⟩ | ⟨he, h⟩
  · exact hall
  · exact hall.exec (by unfold State.busy; rw [hw]) h
  · exact .complete _ hm hw
  · exact hall.scanStep he h

/-! ### The outside keeps the invariant -/

/-- An accepted legal word waits with the handshake just cleared. -/
theorem Inv.accept {s : State} {w : CmdWord} {i : Instr} (hm : memOk s) (hw : decodeWord w = .ok i) :
    Inv (accept w s) := by
  refine ⟨memOk_congr hm rfl, ⟨fun _ => ⟨rfl, rfl, rfl⟩, fun h => nomatch h⟩, fun u hu => ?_, rfl, fun h => nomatch h⟩
  cases hu
  exact ⟨i, hw⟩

theorem Inv.issue {s : State} (w : CmdWord) (hm : memOk s) : Inv (issue w s) := by
  rcases issue_cases w s with ⟨i, hi, h⟩ | ⟨e, _, h⟩
  · rw [h]
    exact .accept hm hi
  · rw [h]
    exact .complete _ (memOk_congr hm rfl) rfl

theorem Inv.dropWrite {s : State} (hs : Inv s) : Inv (dropWrite s) := by
  obtain ⟨hm, hh, hl, hw, hsc⟩ := hs
  exact ⟨memOk_congr hm rfl, hh, hl, hw, fun h => scanLegal_congr (hsc h) rfl rfl⟩

/-- A store to an RW register leaves the spaces, the handshake, the scan position and the outside alone. -/
theorem storeReg_frame (r : Reg) (v : Word) (s : State) :
    (storeReg r v s).mem = s.mem ∧ (storeReg r v s).engine = s.engine ∧ (storeReg r v s).status = s.status ∧
    (storeReg r v s).touched = s.touched ∧ (storeReg r v s).scan = s.scan ∧ (storeReg r v s).res = s.res ∧
    (storeReg r v s).inbox = s.inbox ∧ (storeReg r v s).hostData = s.hostData ∧
    (storeReg r v s).freeCtr = s.freeCtr := by
  cases r <;> exact ⟨rfl, rfl, rfl, rfl, rfl, rfl, rfl, rfl, rfl⟩

/-- The host may change the descriptors only while the PDE is idle, when no scan has to fit them. -/
theorem Inv.storeReg {s : State} (r : Reg) (v : Word) (hs : Inv s) (hb : s.busy = false) : Inv (storeReg r v s) := by
  obtain ⟨hmem, heng, _, htouch, hscan, _⟩ := storeReg_frame r v s
  have hu := hs.untouched_of_idle hb
  obtain ⟨hm, _, _, hw, _⟩ := hs
  exact .of_idle (memOk_congr hm hmem) (by rw [hscan]; exact hw) (heng.trans ((busy_eq_false_iff s).1 hb))
    (htouch.trans hu)

theorem Inv.writeReg {s : State} (n : Nat) (v : Word) (hs : Inv s) : Inv (writeReg n v s) := by
  rcases writeReg_cases n v s with h | ⟨_, h⟩ | ⟨_, h⟩ | ⟨hb, r, _, h⟩
  · rw [h]
    exact hs
  · rw [h]
    exact hs.dropWrite
  · rw [h]
    exact .issue _ hs.1
  · rw [h]
    exact hs.storeReg r v hb

theorem Inv.readReg {s : State} (n : Nat) (hs : Inv s) : Inv (readReg n s) :=
  hs.of_same (readReg_mem n s) (readReg_engine n s) (readReg_status n s) (readReg_touched n s) (readReg_scan n s)
    (readReg_descA n s)

theorem Inv.hostRegWrite {s t : State} {addr nbytes : Nat} {v : Word} (hs : Inv s)
    (h : hostRegWrite addr nbytes v s = .next t) : Inv t := by
  unfold Machine.hostRegWrite at h
  split at h
  · cases h
    exact hs.writeReg _ v
  · cases h

theorem Inv.hostRegRead {s t : State} {addr nbytes : Nat} (hs : Inv s)
    (h : hostRegRead addr nbytes s = .next t) : Inv t := by
  unfold Machine.hostRegRead at h
  split at h
  · cases h
    exact hs.readReg _
  · cases h

/-- A forbidden access marks the running command. -/
theorem Inv.touch {s : State} (hs : Inv s) (hb : s.busy = true) : Inv (touch s) := by
  obtain ⟨hm, ⟨hbusy, _⟩, hl, hw, hsc⟩ := hs
  exact ⟨memOk_congr hm rfl, ⟨hbusy, fun _ => hb⟩, hl, hw, fun h => scanLegal_congr (hsc h) rfl rfl⟩

theorem Inv.readFree {s : State} (hs : Inv s) : Inv (readFree s) := hs.of_same rfl rfl rfl rfl rfl rfl

/-- A host store while the PDE is idle changes the spaces alone. -/
theorem Inv.of_mem {s : State} {m : Spaces} (hs : Inv s) (hm : memOk { s with mem := m }) :
    Inv { s with mem := m } := by
  obtain ⟨_, hh, hl, hw, hsc⟩ := hs
  exact ⟨hm, hh, hl, hw, fun h => scanLegal_congr (hsc h) rfl rfl⟩

theorem Inv.hostStore {s t : State} {sp : ByteSpace} {off : Nat} {v : Byte} (hs : Inv s)
    (h : hostStore sp off v s = .next t) : Inv t := by
  unfold Machine.hostStore at h
  split at h
  · cases h
    split
    · exact hs.touch ‹_›
    · exact hs.of_mem (memOk_setSpace hs.1 ‹_› rfl)
  · cases h

theorem Inv.hostPalStore {s t : State} {sel : Sel} {i : Nat} {v : ColorWord} (hs : Inv s)
    (h : hostPalStore sel i v s = .next t) : Inv t := by
  unfold Machine.hostPalStore at h
  split at h
  · cases h
    split
    · exact hs.touch ‹_›
    · exact hs.of_mem (memOk_setPal hs.1 ‹_› rfl)
  · cases h

theorem Inv.hostLoad {s t : State} {sp : ByteSpace} {off : Nat} (hs : Inv s)
    (h : hostLoad sp off s = .next t) : Inv t := by
  unfold Machine.hostLoad at h
  split at h
  · split at h
    · cases h
      exact (hs.touch ‹_›).readFree
    · split at h
      · cases h
        exact hs.of_same rfl rfl rfl rfl rfl rfl
      · cases h
  · cases h

theorem Inv.hostPalLoad {s t : State} {sel : Sel} {i : Nat} (hs : Inv s)
    (h : hostPalLoad sel i s = .next t) : Inv t := by
  unfold Machine.hostPalLoad at h
  split at h
  · split at h
    · cases h
      exact (hs.touch ‹_›).readFree
    · split at h
      · cases h
        exact hs.of_same rfl rfl rfl rfl rfl rfl
      · cases h
  · cases h

theorem Inv.outsideStep {s t : State} {e : Event} (hs : Inv s) (h : outsideStep e s = .next t) : Inv t := by
  cases e with
  | regWrite addr nbytes v => exact hs.hostRegWrite h
  | regRead addr nbytes => exact hs.hostRegRead h
  | store sp off v => exact hs.hostStore h
  | load sp off => exact hs.hostLoad h
  | palStore sel i v => exact hs.hostPalStore h
  | palLoad sel i => exact hs.hostPalLoad h
  | wait =>
    cases h
    exact hs.readReg _
  | engine i =>
    cases h
    exact hs
  | reset =>
    cases h
    exact Inv.reset.of_same rfl rfl rfl rfl rfl rfl

/-- Settles O53: a step is one of the PDE or one of the outside, with at most the inbox shortened before it, and each
kind keeps the invariant. -/
theorem stepKeepsTheInvariant : Obligations.StepKeepsTheInvariant := by
  intro s t hs h
  have hinbox : ∀ r, Inv { s with inbox := r } := fun r => hs.of_same rfl rfl rfl rfl rfl rfl
  rcases step_next_cases h with ⟨pick, r, h⟩ | ⟨e, rest, _, h⟩
  · exact (hinbox r).pdeStep h
  · exact (hinbox rest).outsideStep h

/-- Settles O54. -/
theorem invariantHoldsAtReset : Obligations.InvariantHoldsAtReset := Inv.reset

end Sys2Proof.Machine
end

section
/-! The register window: whose turn an event is, which numbers are writable, results or none, and what a write or a
read of each kind does (O7, O8, O10, O11, O12, O14). -/

namespace Sys2Proof.Machine

/-! ### The events of the register window -/

theorem step_regWrite {s : State} {addr nbytes : Nat} {v : Word} {rest : List Event}
    (h : s.inbox = .regWrite addr nbytes v :: rest) :
    step s = hostRegWrite addr nbytes v { s with inbox := rest } := by
  unfold step turn
  rw [h]
  rfl

theorem step_regRead {s : State} {addr nbytes : Nat} {rest : List Event}
    (h : s.inbox = .regRead addr nbytes :: rest) :
    step s = hostRegRead addr nbytes { s with inbox := rest } := by
  unfold step turn
  rw [h]
  rfl

/-- The access to register n (`10_state.md` R10). -/
theorem wholeAccess_register (n : Nat) : wholeAccess (8 * n) 8 = true := by
  unfold wholeAccess
  simp

theorem wholeAccess_eq_false {addr nbytes : Nat} (h : nbytes ≠ 8 ∨ addr % 8 ≠ 0) :
    wholeAccess addr nbytes = false := by
  unfold wholeAccess
  rcases h with h | h <;> simp [h]

theorem step_writeReg {s : State} {n : Nat} {v : Word} {rest : List Event}
    (h : s.inbox = .regWrite (8 * n) 8 v :: rest) : step s = .next (writeReg n v { s with inbox := rest }) := by
  rw [step_regWrite h, hostRegWrite, if_pos (wholeAccess_register n), Nat.mul_div_cancel_left n (by decide)]

theorem step_readReg {s : State} {n : Nat} {rest : List Event}
    (h : s.inbox = .regRead (8 * n) 8 :: rest) : step s = .next (readReg n { s with inbox := rest }) := by
  rw [step_regRead h, hostRegRead, if_pos (wholeAccess_register n), Nat.mul_div_cancel_left n (by decide)]

/-- Settles O12. -/
theorem partialAccessIsRefused : Obligations.PartialAccessIsRefused := by
  intro s addr nbytes v rest hpart
  have hw : ¬wholeAccess addr nbytes = true := by
    rw [wholeAccess_eq_false hpart]
    exact Bool.false_ne_true
  refine ⟨fun h => ?_, fun h => ?_⟩
  · rw [step_regWrite h, hostRegWrite, if_neg hw]
  · rw [step_regRead h, hostRegRead, if_neg hw]

/-! ### Register numbers -/

/-- There is no register above 0x1A. -/
theorem regOfNumber_eq_none_iff (n : Nat) : regOfNumber n = none ↔ 26 < n := by
  unfold regOfNumber
  rw [List.getElem?_eq_none_iff]
  rfl

theorem regOfNumber_lt {n : Nat} {r : Reg} (h : regOfNumber n = some r) : n < 27 := by
  by_contra hn
  rw [(regOfNumber_eq_none_iff n).2 (by omega)] at h
  cases h

/-- The column "access" of `10_state.md` R10 by number. -/
theorem isReadOnly_eq {n : Nat} {r : Reg} (h : regOfNumber n = some r) : isReadOnly r = !writableNumber n := by
  have hall : ∀ n < 27, ∀ r ∈ regOfNumber n, isReadOnly r = !writableNumber n := by decide
  exact hall n (regOfNumber_lt h) r h

theorem isResult_eq {n : Nat} {r : Reg} (h : regOfNumber n = some r) : isResult r = resultNumber n := by
  have hall : ∀ n < 27, ∀ r ∈ regOfNumber n, isResult r = resultNumber n := by decide
  exact hall n (regOfNumber_lt h) r h

/-- The writable numbers are below 27. -/
theorem regOfNumber_of_writable {n : Nat} (h : writableNumber n = true) : ∃ r, regOfNumber n = some r := by
  refine Option.ne_none_iff_exists'.1 fun hn => ?_
  have := (regOfNumber_eq_none_iff n).1 hn
  simp only [writableNumber, Bool.or_eq_true, Bool.and_eq_true, decide_eq_true_eq] at h
  omega

theorem regOfNumber_of_result {n : Nat} (h : resultNumber n = true) : ∃ r, regOfNumber n = some r := by
  refine Option.ne_none_iff_exists'.1 fun hn => ?_
  have := (regOfNumber_eq_none_iff n).1 hn
  simp only [resultNumber, Bool.and_eq_true, decide_eq_true_eq] at h
  omega

/-! ### Writes -/

/-- A write to a register that is neither CMD nor RW, or to none, is ignored (`10_state.md` R11). -/
theorem writeReg_of_not_writable {n : Nat} (v : Word) (s : State) (h : writableNumber n = false) :
    writeReg n v s = s := by
  unfold writeReg
  split
  · rfl
  · rename_i r hr
    rw [isReadOnly_eq hr, h]
    rfl

theorem writeReg_of_writable {n : Nat} {r : Reg} (v : Word) (s : State) (h : writableNumber n = true)
    (hr : regOfNumber n = some r) : writeReg n v s = writeWritable r v s := by
  unfold writeReg
  rw [hr]
  simp [isReadOnly_eq hr, h]

/-- While BUSY = 1 a write to CMD or an RW register is dropped (`70_reset_and_hazards.md` R241). -/
theorem writeReg_busy {n : Nat} (v : Word) {s : State} (h : writableNumber n = true) (hb : s.busy = true) :
    writeReg n v s = dropWrite s := by
  obtain ⟨r, hr⟩ := regOfNumber_of_writable h
  rw [writeReg_of_writable v s h hr, writeWritable, if_pos hb]

/-- While BUSY = 0 a write to CMD issues the word in bits 31:0 (`10_state.md` R15). -/
theorem writeReg_cmd (v : Word) {s : State} (hb : s.busy = false) : writeReg 1 v s = issue (v.setWidth 32) s := by
  rw [writeReg_of_writable v s rfl (r := .cmd) rfl, writeWritable, hb]
  rfl

/-- While BUSY = 0 a write to an RW register stores (`10_state.md` R11). -/
theorem writeReg_store {n : Nat} {r : Reg} (v : Word) {s : State} (h3 : 3 ≤ n) (h17 : n ≤ 17)
    (hr : regOfNumber n = some r) (hb : s.busy = false) : writeReg n v s = storeReg r v s := by
  have hw : writableNumber n = true := by simp [writableNumber, h3, h17]
  have hcmd : r ≠ .cmd := by
    rintro rfl
    interval_cases n <;> cases hr
  rw [writeReg_of_writable v s hw hr, writeWritable, hb, if_neg Bool.false_ne_true, if_neg hcmd]

/-- Settles O8. -/
theorem busyWritesAreDropped : Obligations.BusyWritesAreDropped := by
  intro s n v rest hb h
  rw [step_writeReg h]
  cases hw : writableNumber n with
  | true =>
    rw [writeReg_busy v (s := { s with inbox := rest }) hw hb, Bool.or_true]
    rfl
  | false => rw [writeReg_of_not_writable v _ hw, Bool.or_false]

/-! ### Reads -/

/-- A read of a number above 0x1A gives 0 (`10_state.md` R11). -/
theorem readReg_of_none {n : Nat} (s : State) (h : 26 < n) : readReg n s = { s with hostData := 0#64 } := by
  unfold readReg
  rw [(regOfNumber_eq_none_iff n).2 h]

/-- A result register has no specified value while BUSY = 1 (`10_state.md` R17). -/
theorem readReg_busy_result {n : Nat} {s : State} (hb : s.busy = true) (h : resultNumber n = true) :
    readReg n s = readFree s := by
  obtain ⟨r, hr⟩ := regOfNumber_of_result h
  unfold readReg
  rw [hr]
  simp [hb, isResult_eq hr, h]

/-- Every other read gives the register's value. -/
theorem readReg_of_some {n : Nat} {r : Reg} {s : State} (hr : regOfNumber n = some r)
    (h : s.busy = false ∨ resultNumber n = false) : readReg n s = { s with hostData := regValue s r } := by
  unfold readReg
  rw [hr]
  rcases h with h | h <;> simp [isResult_eq hr, h]

/-- Settles O10. -/
theorem otherRegistersIgnoreWrites : Obligations.OtherRegistersIgnoreWrites := by
  intro s n v rest hw
  refine ⟨fun h => ?_, fun hn h => ?_⟩
  · rw [step_writeReg h, writeReg_of_not_writable v _ hw]
  · rw [step_readReg h, readReg_of_none _ hn]

/-- STATUS.BUSY is bit 0. -/
theorem getLsbD_packStatus_zero (b : Bool) (st : Status) : (packStatus b st).getLsbD 0 = b := by
  have hbit : ∀ (c : Bool) (k : Nat), (bitAt c k)[0] = (c && decide (k = 0)) := by
    intro c k
    cases c <;> cases k <;> simp [bitAt]
  simp [packStatus, hbit]

theorem regValue_inbox (s : State) (es : List Event) (r : Reg) : regValue { s with inbox := es } r = regValue s r := by
  cases r <;> rfl

/-- Settles O11. -/
theorem busyReads : Obligations.BusyReads := by
  intro s n r rest hb hr h
  refine ⟨fun hn => ?_, fun hn => ?_, ?_⟩
  · rw [step_readReg h, readReg_busy_result (s := { s with inbox := rest }) hb hn]
    rfl
  · rw [step_readReg h, readReg_of_some hr (.inr hn), regValue_inbox]
  · exact (getLsbD_packStatus_zero s.busy s.status).trans hb

/-! ### The issue of a command -/

/-- Issue changes nothing of the operands, the spaces and the outside. -/
theorem issue_frame (w : CmdWord) (s : State) :
    sameOperands s (issue w s) ∧ (issue w s).mem = s.mem ∧ sameOutside s (issue w s) := by
  rcases issue_cases w s with ⟨i, _, h⟩ | ⟨e, _, h⟩ <;> rw [h]
  · exact ⟨⟨rfl, rfl, rfl, rfl, rfl, rfl⟩, rfl, rfl, rfl, rfl⟩
  · rw [raiseError_accept]
    exact ⟨⟨rfl, rfl, rfl, rfl, rfl, rfl⟩, rfl, rfl, rfl, rfl⟩

/-- Acceptance clears the results, the scan position and the mark, whatever the word is (`60_exceptions.md` R210). -/
theorem issue_cleared (w : CmdWord) (s : State) :
    (issue w s).res = Results.clear ∧ (issue w s).scan = Scan.clear ∧ (issue w s).touched = false := by
  rcases issue_cases w s with ⟨i, _, h⟩ | ⟨e, _, h⟩ <;> rw [h]
  · exact ⟨rfl, rfl, rfl⟩
  · rw [raiseError_accept]
    exact ⟨rfl, rfl, rfl⟩

/-- A legal word is latched, with nothing in STATUS but BUSY. -/
theorem issue_legal {w : CmdWord} {i : Instr} (s : State) (h : decodeWord w = .ok i) :
    (issue w s).engine = .accepted w ∧ regValue (issue w s) .status = 1#64 := by
  have haccept : issue w s = accept w s := by
    unfold issue latched
    rw [h]
  have hstatus : packStatus true Status.clear = 1#64 := by decide
  rw [haccept]
  exact ⟨rfl, hstatus⟩

/-- An illegal word has completed with ERR = 5 (`30_encoding.md` R94). -/
theorem issue_illegal {w : CmdWord} {e : DecodeError} (s : State) (h : decodeWord w = .error e) :
    (issue w s).engine = .idle ∧ regValue (issue w s) .status = 0x052#64 := by
  have hraise : issue w s = raiseError .illegalCommand (accept w s) := by
    unfold issue latched
    rw [h]
  have hstatus : packStatus false { Status.clear with done := true, err := some .illegalCommand } = 0x052#64 := by
    decide
  rw [hraise, raiseError_accept]
  exact ⟨rfl, hstatus⟩

/-- A result register shows a field of `State.res`. -/
theorem regValue_congr_of_isResult {s t : State} {r : Reg} (hr : isResult r = true) (h : t.res = s.res) :
    regValue t r = regValue s r := by
  cases r <;> simp_all [isResult, regValue]

/-- Every result register reads 0 after acceptance, as it does after reset. -/
theorem regValue_of_res_clear {s : State} {n : Nat} {r : Reg} (hs : s.res = Results.clear)
    (hr : regOfNumber n = some r) (h : resultNumber n = true) : regValue s r = 0#64 := by
  have hres : isResult r = true := (isResult_eq hr).trans h
  have hreset : ∀ r ∈ regList, isResult r = true → regValue State.reset r = 0#64 := by decide
  rw [regValue_congr_of_isResult (s := State.reset) hres hs]
  exact hreset r (List.mem_of_getElem? hr) hres

theorem lane_of_scan_clear {s : State} (hs : s.scan = Scan.clear) (i : Nat) : s.lane i = Lane.clear := by
  unfold State.lane
  rw [hs]
  rfl

/-- Settles O7: the write is the issue of the word, whose effect is said above. -/
theorem cmdWriteAccepts : Obligations.CmdWriteAccepts := by
  intro s v rest hb h
  have hstep : step s = .next (issue (v.extractLsb' 0 32) { s with inbox := rest }) := by
    rw [step_writeReg (n := 1) h, writeReg_cmd v (s := { s with inbox := rest }) hb, BitVec.setWidth_eq_extractLsb']
    decide
  obtain ⟨hops, hmem, hin, hdata, hctr⟩ := issue_frame (v.extractLsb' 0 32) { s with inbox := rest }
  obtain ⟨hres, hscan, htouch⟩ := issue_cleared (v.extractLsb' 0 32) { s with inbox := rest }
  refine ⟨_, hstep, fun i hi => issue_legal _ hi, fun e he => issue_illegal _ he, fun n hn => ?_, ?_,
    lane_of_scan_clear hscan, htouch, hops, hmem, hin, hdata, hctr⟩
  · obtain ⟨r, hr⟩ := regOfNumber_of_result hn
    exact ⟨r, hr, regValue_of_res_clear hres hr hn⟩
  · rw [hscan]
    rfl

/-! ### Reset -/

/-- N_LANES fits the 16 bits of LANES (`10_state.md` R35). -/
theorem nLanes_lt : Config.nLanes < 2 ^ 16 := by
  have := Config.extraLanes.isLt
  unfold Config.nLanes
  omega

/-- No byte has a value after reset (`70_reset_and_hazards.md` R232). -/
theorem readByte_reset (sp : ByteSpace) (off : Nat) : readByte State.reset.mem sp off = none := by
  cases sp <;> rfl

theorem palette_reset (sel : Sel) (i : Nat) : cellGet (palOf State.reset.mem sel) i = none := by
  cases sel <;> rfl

/-- Settles O14: the table of `10_state.md` R41, evaluated; LANES is the open parameter. -/
theorem resetValues : Obligations.ResetValues := by
  have hlanes : (regValue State.reset .lanes).toNat = Config.nLanes := by
    have := nLanes_lt
    exact Nat.mod_eq_of_lt (by omega)
  refine ⟨by decide, by decide, by decide, by decide, by decide, by decide, by decide, by decide, by decide, by decide,
    by decide, by decide, hlanes, rfl, fun _ => rfl, readByte_reset, palette_reset⟩

end Sys2Proof.Machine
end

section
/-! The bit layouts of the registers. A register is read as an OR of shifted fields and written by cutting fields out of
the written value; both are brought to one form, `field`, from which the masks of O9 and the concatenations of O60
follow. -/

namespace Sys2Proof.Machine

/-! ### One field of a register -/

/-- A value placed at bit lo of a register. -/
def field {n : Nat} (x : BitVec n) (lo : Nat) : Word := x.setWidth 64 <<< lo

/-- The bits lo .. lo+len-1 of a register. -/
def fieldMask (lo len : Nat) : Word := field (BitVec.allOnes len) lo

theorem getLsbD_field {n : Nat} (x : BitVec n) (lo i : Nat) :
    (field x lo).getLsbD i = (decide (lo ≤ i) && decide (i < 64) && x.getLsbD (i - lo)) := by
  unfold field
  rw [BitVec.getLsbD_shiftLeft, BitVec.getLsbD_setWidth]
  by_cases h : lo ≤ i
  · by_cases h64 : i < 64
    · simp [h, h64, show ¬i < lo by omega, show i - lo < 64 by omega]
    · simp [h64]
  · simp [h, show i < lo by omega]

/-- Cutting a field out of a value and putting it back where it was is masking. -/
theorem field_extractLsb' (v : Word) (lo len : Nat) : field (v.extractLsb' lo len) lo = v &&& fieldMask lo len := by
  apply BitVec.eq_of_getLsbD_eq
  intro i hi
  rw [BitVec.getLsbD_and, fieldMask, getLsbD_field, getLsbD_field, BitVec.getLsbD_extractLsb', BitVec.getLsbD_allOnes]
  by_cases h : lo ≤ i
  · rw [Nat.add_sub_cancel' h]
    simp [h, hi, Bool.and_comm]
  · simp [h]

theorem field_zero (n lo : Nat) : field (0#n) lo = 0#64 := by
  apply BitVec.eq_of_getLsbD_eq
  intro i _
  simp [getLsbD_field]

/-- The fields of a concatenation. -/
theorem field_append {m n : Nat} (x : BitVec m) (y : BitVec n) (lo : Nat) :
    field (x ++ y) lo = field x (lo + n) ||| field y lo := by
  apply BitVec.eq_of_getLsbD_eq
  intro i hi
  rw [BitVec.getLsbD_or, getLsbD_field, getLsbD_field, getLsbD_field, BitVec.getLsbD_append]
  by_cases hlo : lo ≤ i
  · by_cases hlow : i - lo < n
    · simp [hi, hlo, hlow, show ¬lo + n ≤ i by omega]
    · rw [BitVec.getLsbD_of_ge y _ (by omega), Nat.sub_sub]
      simp [hi, hlo, hlow, show lo + n ≤ i by omega]
  · simp [hlo, show ¬lo + n ≤ i by omega]

theorem field_at_zero {n : Nat} (x : BitVec n) : field x 0 = x.setWidth 64 := BitVec.shiftLeft_zero _

/-- A whole register is one field, so a concatenation of 64 bits is an OR of fields. -/
theorem field_word (x : Word) : field x 0 = x := by
  rw [field_at_zero, BitVec.setWidth_eq]

theorem bitAt_eq_field (b : Bool) (k : Nat) : bitAt b k = field (BitVec.ofBool b) k := by
  cases b
  · exact (field_zero 1 k).symm
  · rfl

/-! ### What a register shows, as the concatenation of its fields -/

/-- A 32-bit register (`10_state.md` R12). -/
theorem setWidth_word (x : BitVec 32) : x.setWidth 64 = 0#32 ++ x := by
  rw [← field_word (0#32 ++ x), field_append, field_zero, BitVec.zero_or, field_at_zero]

/-- LEN and RESP (`10_state.md` R26, R33). -/
theorem setWidth_offset (x : BitVec 40) : x.setWidth 64 = 0#24 ++ x := by
  rw [← field_word (0#24 ++ x), field_append, field_zero, BitVec.zero_or, field_at_zero]

/-- DIMS and the point registers: two 16-bit fields (`10_state.md` R24, R27). -/
theorem halves_eq_append (lo hi : BitVec 16) : lo.setWidth 64 ||| (hi.setWidth 64 <<< 16) = 0#32 ++ hi ++ lo := by
  rw [← field_word (0#32 ++ hi ++ lo), field_append, field_append, field_zero, BitVec.zero_or, BitVec.or_comm,
    field_at_zero]
  rfl

/-- FLAGS (`10_state.md` R20). -/
theorem packFlags_eq_append (f : Flags) :
    packFlags f = 0#60 ++ BitVec.ofBool f.altValid ++ BitVec.ofBool f.outputEn ++ BitVec.ofBool f.diffMask ++
      BitVec.ofBool f.includeAa := by
  rw [← field_word (_ ++ BitVec.ofBool f.includeAa), field_append]
  simp only [field_append, field_zero, BitVec.zero_or, packFlags, bitAt_eq_field]
  ac_rfl

/-- RESB (`10_state.md` R32). -/
theorem packResb_eq_append (r : Results) :
    packResb r = 0#60 ++ BitVec.ofBool r.resWr ++ classCode r.resClass ++ BitVec.ofBool r.resBool := by
  have hfields : packResb r =
      field (BitVec.ofBool r.resBool) 0 ||| field (classCode r.resClass) 1 ||| field (BitVec.ofBool r.resWr) 3 := by
    rw [← bitAt_eq_field, ← bitAt_eq_field]
    rfl
  rw [← field_word (_ ++ BitVec.ofBool r.resBool), field_append, hfields]
  simp only [field_append, field_zero, BitVec.zero_or]
  ac_rfl

/-- STATUS (`10_state.md` R16). -/
theorem packStatus_eq_append (b : Bool) (st : Status) :
    packStatus b st = 0#52 ++ errInfo st.err ++ 0#1 ++ errCode st.err ++ BitVec.ofBool st.dropped ++
      BitVec.ofBool st.outValid ++ BitVec.ofBool st.done ++ BitVec.ofBool b := by
  have hfields : packStatus b st =
      field (BitVec.ofBool b) 0 ||| field (BitVec.ofBool st.done) 1 ||| field (BitVec.ofBool st.outValid) 2 |||
        field (BitVec.ofBool st.dropped) 3 ||| field (errCode st.err) 4 ||| field (errInfo st.err) 8 := by
    simp only [← bitAt_eq_field]
    rfl
  rw [← field_word (_ ++ BitVec.ofBool b), field_append, hfields]
  simp only [field_append, field_zero, BitVec.zero_or, BitVec.or_zero]
  ac_rfl

/-- B of a model code is the table of `20_memory.md` R61, and fits the four bits of BPP. -/
theorem bytesPerPixel_eq_bppTable (model : BitVec 4) :
    bytesPerPixel model = bppTable.getD model.toNat 0 ∧ bytesPerPixel model < 16 := by
  have hall : ∀ k < 16, bytesPerPixel (BitVec.ofNat 4 k) = bppTable.getD k 0 ∧
      bytesPerPixel (BitVec.ofNat 4 k) < 16 := by decide
  have h := hall model.toNat model.isLt
  rwa [BitVec.ofNat_toNat, BitVec.setWidth_eq] at h

theorem setWidth_ofNat_of_lt {n k : Nat} (h : k < 2 ^ n) : (BitVec.ofNat n k).setWidth 64 = BitVec.ofNat 64 k := by
  apply BitVec.eq_of_toNat_eq
  rw [BitVec.toNat_setWidth, BitVec.toNat_ofNat, BitVec.toNat_ofNat, Nat.mod_eq_of_lt h]

/-- LAYOUT with its derived BPP (`10_state.md` R25). -/
theorem packLayout_eq_append (d : Desc) :
    packLayout d = 0#20 ++ BitVec.ofNat 4 (bppTable.getD d.model.toNat 0) ++ 0#4 ++ d.model ++ 0#8 ++ d.stride := by
  obtain ⟨hbpp, hlt⟩ := bytesPerPixel_eq_bppTable d.model
  have hfields : packLayout d =
      field d.stride 0 ||| field d.model 32 ||| field (BitVec.ofNat 4 (bytesPerPixel d.model)) 40 := by
    unfold field packLayout
    rw [setWidth_ofNat_of_lt hlt, BitVec.shiftLeft_zero]
  rw [← field_word (_ ++ d.stride), field_append, hfields, hbpp]
  simp only [field_append, field_zero, BitVec.zero_or, BitVec.or_zero]
  rw [BitVec.or_assoc, BitVec.or_comm, BitVec.or_comm (field d.model 32)]

/-- LANES (`10_state.md` R35). -/
theorem lanesValue_eq_append : BitVec.ofNat 64 Config.nLanes = 0#48 ++ BitVec.ofNat 16 Config.nLanes := by
  rw [← field_word (0#48 ++ _), field_append, field_zero, BitVec.zero_or, field_at_zero,
    setWidth_ofNat_of_lt nLanes_lt]

/-! ### The tables -/

/-- Every way a command can end is listed (`60_exceptions.md` R201, R204, R205). -/
theorem errorTable_complete (e : Option CmdError) : ∃ row ∈ errorTable, row.1 = e := by
  rcases e with _ | (_ | _ | buf | cause | _)
  case some.unsupportedFormat => cases buf <;> decide
  case some.badParam =>
    rcases cause with buf | buf | _ | _ | _ | _ | _
    case stride => cases buf <;> decide
    case len => cases buf <;> decide
    all_goals decide
  all_goals decide

/-- The codes of STATUS are the table's. -/
theorem errorTable_codes : ∀ row ∈ errorTable, row.2.1 = errCode row.1 ∧ row.2.2 = errInfo row.1 := by decide

theorem classTable_codes : ∀ row ∈ classTable, row.2 = classCode row.1 := by decide

/-! ### Reads while idle, and WAIT -/

theorem step_wait {s : State} {rest : List Event} (h : s.inbox = .wait :: rest) :
    step s = if s.busy then pdeStep none s else .next (readReg statusNumber { s with inbox := rest }) := by
  unfold step turn
  rw [h]
  cases s.busy <;> rfl

/-- Settles O60: the layouts above, register by register, then the read and the WAIT. -/
theorem idleReadsAndWait : Obligations.IdleReadsAndWait := by
  refine ⟨fun s => ?_, fun s n r rest hb hr h => ?_, fun s rest h => ⟨fun hb => ?_, fun hb => ?_⟩⟩
  · refine ⟨rfl, rfl, errorTable_complete _, fun row hrow herr => ?_, packFlags_eq_append _, rfl, rfl,
      setWidth_word _, setWidth_word _, setWidth_word _, halves_eq_append _ _, halves_eq_append _ _,
      packLayout_eq_append _, packLayout_eq_append _, setWidth_offset _, setWidth_offset _, halves_eq_append _ _,
      halves_eq_append _ _, setWidth_word _, setWidth_word _, rfl, rfl, rfl, setWidth_word _,
      fun row hrow hcls => ?_, setWidth_offset _, rfl, lanesValue_eq_append⟩
    · obtain ⟨hcode, hinfo⟩ := errorTable_codes row hrow
      rw [hcode, hinfo, herr]
      exact packStatus_eq_append _ _
    · rw [classTable_codes row hrow, hcls]
      exact packResb_eq_append _
  · rw [step_readReg h, readReg_of_some (s := { s with inbox := rest }) hr (.inl hb), regValue_inbox]
  · rw [step_wait h, if_pos hb]
  · rw [step_wait h, hb, if_neg Bool.false_ne_true,
      readReg_of_some (s := { s with inbox := rest }) (r := .status) rfl (.inl hb), regValue_inbox]

/-! ### Writes while idle -/

/-- A write stores a 32-bit register's low half. -/
theorem setWidth_stored (v : Word) : (v.setWidth 32).setWidth 64 = v &&& 0xFFFFFFFF#64 := by
  have hcut : v.setWidth 32 = v.extractLsb' 0 32 := BitVec.setWidth_eq_extractLsb' (by decide)
  rw [hcut, ← field_at_zero, field_extractLsb']
  rfl

theorem offset_stored (v : Word) : (v.extractLsb' 0 40).setWidth 64 = v &&& 0xFFFFFFFFFF#64 := by
  rw [← field_at_zero, field_extractLsb']
  rfl

theorem halves_stored (v : Word) :
    (v.extractLsb' 0 16).setWidth 64 ||| ((v.extractLsb' 16 16).setWidth 64 <<< 16) = v &&& 0xFFFFFFFF#64 := by
  have hmask : fieldMask 0 16 ||| fieldMask 16 16 = 0xFFFFFFFF#64 := by decide
  rw [← hmask, BitVec.and_or_distrib_left, ← field_extractLsb', ← field_extractLsb', field_at_zero]
  rfl

theorem flags_stored (v : Word) : packFlags (unpackFlags v) = v &&& 0xF#64 := by
  have hmask : fieldMask 0 1 ||| fieldMask 1 1 ||| fieldMask 2 1 ||| fieldMask 3 1 = 0xF#64 := by decide
  have hbit : ∀ k, BitVec.ofBool (v.getLsbD k) = v.extractLsb' k 1 := by
    intro k
    apply BitVec.eq_of_getLsbD_eq
    intro i hi
    simp [Nat.lt_one_iff.1 hi]
  rw [← hmask]
  simp only [BitVec.and_or_distrib_left, ← field_extractLsb', packFlags, unpackFlags, bitAt_eq_field, hbit]

/-- A write of LAYOUT stores S and MODEL; BPP follows MODEL (`10_state.md` R25). -/
theorem layout_stored (v : Word) (d : Desc) :
    packLayout (writeLayout v d) =
      v &&& 0xF00FFFFFF#64 ||| BitVec.ofNat 64 (bytesPerPixel (v.extractLsb' 32 4)) <<< 40 := by
  have hmask : fieldMask 0 24 ||| fieldMask 32 4 = 0xF00FFFFFF#64 := by decide
  rw [← hmask, BitVec.and_or_distrib_left, ← field_extractLsb', ← field_extractLsb', field_at_zero]
  rfl

/-- An RW register reads the stored bits of what was written and the derived ones. -/
theorem regValue_storeReg_same {n : Nat} {r : Reg} (v : Word) (s : State) (h3 : 3 ≤ n) (h17 : n ≤ 17)
    (hr : regOfNumber n = some r) :
    regValue (storeReg r v s) r = v &&& storedMask n ||| derivedBits n v := by
  have hplain : ∀ {x m : Word}, x = v &&& m → x = v &&& m ||| 0#64 := fun h => h.trans BitVec.or_zero.symm
  -- the registers 3 to 17 in their order (`10_state.md` R10)
  interval_cases n <;> cases hr
  · exact hplain (flags_stored v) -- FLAGS
  · exact hplain BitVec.and_allOnes.symm -- THRESHOLD
  · exact hplain BitVec.and_allOnes.symm -- ALPHA
  · exact hplain (setWidth_stored v) -- AA_COLOR
  · exact hplain (setWidth_stored v) -- DIFF_COLOR
  · exact hplain (setWidth_stored v) -- DIFF_COLOR_ALT
  · exact hplain (halves_stored v) -- A_DIMS
  · exact layout_stored v _ -- A_LAYOUT
  · exact hplain (offset_stored v) -- A_LEN
  · exact hplain (halves_stored v) -- B_DIMS
  · exact layout_stored v _ -- B_LAYOUT
  · exact hplain (offset_stored v) -- B_LEN
  · exact hplain (halves_stored v) -- PT_P
  · exact hplain (halves_stored v) -- PT_Q
  · exact hplain (setWidth_stored v) -- COLIN

/-- A store to one register shows in no other: each register shows components of the state that no other RW register is
stored in, or bits of the descriptor that the other one keeps. -/
theorem regValue_storeReg_other {r r' : Reg} (v : Word) (s : State) (h : r' ≠ r) :
    regValue (storeReg r v s) r' = regValue s r' := by
  cases r <;> cases r' <;> first | rfl | exact absurd rfl h

/-- Settles O9. -/
theorem idleWriteStoresDefinedFields : Obligations.IdleWriteStoresDefinedFields := by
  intro s n v rest hb h3 h17 h
  have hw : writableNumber n = true := by simp [writableNumber, h3, h17]
  obtain ⟨r, hr⟩ := regOfNumber_of_writable hw
  have hstep : step s = .next (storeReg r v { s with inbox := rest }) := by
    rw [step_writeReg h, writeReg_store v (s := { s with inbox := rest }) h3 h17 hr hb]
  obtain ⟨hmem, heng, _, htouch, hscan, _, hin, hdata, hctr⟩ := storeReg_frame r v { s with inbox := rest }
  refine ⟨_, r, hstep, hr, regValue_storeReg_same v _ h3 h17 hr, fun r' hne => ?_, heng, hscan, hmem, htouch, hin,
    hdata, hctr⟩
  rw [regValue_storeReg_other v _ hne, regValue_inbox]

end Sys2Proof.Machine
end

section
/-! What a command leaves unchanged: the inputs, which no step of the PDE writes (O55), and for the commands but CMP
everything that their row of `30_encoding.md` R93 does not list (O45). -/

namespace Sys2Proof.Machine

/-! ### No step of the PDE writes its inputs -/

/-- The operands, the images and the palettes are as they were. -/
def keepsInputs (s t : State) : Prop := sameOperands s t ∧ sameInputCells s t

theorem keepsInputs_refl (s : State) : keepsInputs s s :=
  ⟨⟨rfl, rfl, rfl, rfl, rfl, rfl⟩, fun _ _ => rfl, fun _ _ => rfl⟩

theorem keepsInputs_trans {s t u : State} (h : keepsInputs s t) (k : keepsInputs t u) : keepsInputs s u := by
  obtain ⟨⟨ho, ha, hb, hp, hq, hc⟩, hbytes, hpal⟩ := h
  obtain ⟨⟨ko, ka, kb, kp, kq, kc⟩, kbytes, kpal⟩ := k
  exact ⟨⟨ko.trans ho, ka.trans ha, kb.trans hb, kp.trans hp, kq.trans hq, kc.trans hc⟩,
    fun sel off => (kbytes sel off).trans (hbytes sel off), fun sel i => (kpal sel i).trans (hpal sel i)⟩

/-- A state with the same operands whose spaces differ in OUT alone. -/
theorem keepsInputs_of_out {s t : State} {m : Memory} (hops : sameOperands s t)
    (hmem : t.mem = { s.mem with out := m }) : keepsInputs s t := by
  refine ⟨hops, fun sel off => ?_, fun sel i => ?_⟩ <;> rw [hmem] <;> cases sel <;> rfl

theorem keepsInputs_of_mem {s t : State} (hops : sameOperands s t) (hmem : t.mem = s.mem) : keepsInputs s t :=
  keepsInputs_of_out (m := s.mem.out) hops hmem

theorem keepsInputs_complete (e : Option CmdError) (s : State) : keepsInputs s (complete e s) := by
  unfold complete
  split
  · exact keepsInputs_of_out ⟨rfl, rfl, rfl, rfl, rfl, rfl⟩ rfl
  · exact keepsInputs_of_mem ⟨rfl, rfl, rfl, rfl, rfl, rfl⟩ rfl

theorem keepsInputs_startScan (s : State) : keepsInputs s (startScan s) := by
  unfold startScan zeroFill
  split
  · exact keepsInputs_of_out ⟨rfl, rfl, rfl, rfl, rfl, rfl⟩ rfl
  · exact keepsInputs_of_mem ⟨rfl, rfl, rfl, rfl, rfl, rfl⟩ rfl

theorem keepsInputs_applyVerdict (s : State) (i : Nat) (v : Verdict) : keepsInputs s (applyVerdict s i v) := by
  unfold applyVerdict
  split
  · exact keepsInputs_of_out ⟨rfl, rfl, rfl, rfl, rfl, rfl⟩ rfl
  · exact keepsInputs_of_mem ⟨rfl, rfl, rfl, rfl, rfl, rfl⟩ rfl

/-- A completion whose results or STATUS were set just before it. -/
theorem keepsInputs_complete_of_mem {s t : State} (e : Option CmdError) (hops : sameOperands s t)
    (hmem : t.mem = s.mem) : keepsInputs s (complete e t) :=
  keepsInputs_trans (keepsInputs_of_mem hops hmem) (keepsInputs_complete e t)

theorem keepsInputs_exec {i : Instr} {s t : State} (h : exec i s = .next t) : keepsInputs s t := by
  by_cases hi : i = .cmp
  · subst hi
    rcases execCmp_next_cases h with ⟨e, _, rfl⟩ | ⟨_, _, rfl⟩ | ⟨_, _, e, _, rfl⟩ | ⟨_, _, _, rfl⟩
    · exact keepsInputs_complete _ s
    · exact keepsInputs_complete_of_mem _ ⟨rfl, rfl, rfl, rfl, rfl, rfl⟩ rfl
    · exact keepsInputs_complete _ s
    · exact keepsInputs_startScan s
  · rcases execHelper_next_cases hi h with ⟨e, rfl⟩ | ⟨r, rfl⟩
    · exact keepsInputs_complete _ s
    · exact keepsInputs_complete_of_mem _ ⟨rfl, rfl, rfl, rfl, rfl, rfl⟩ rfl

theorem keepsInputs_laneMove {s t : State} {i : Nat} (h : laneMove s i = .ok t) : keepsInputs s t := by
  rcases laneMove_ok_cases h with ⟨_, rfl⟩ | ⟨_, v, _, rfl⟩ | ⟨_, rfl⟩ | ⟨_, _, _, rfl⟩
  · exact keepsInputs_of_mem ⟨rfl, rfl, rfl, rfl, rfl, rfl⟩ rfl
  · exact keepsInputs_applyVerdict s i v
  · exact keepsInputs_of_mem ⟨rfl, rfl, rfl, rfl, rfl, rfl⟩ rfl
  · exact keepsInputs_refl _

theorem keepsInputs_scanStep {s t : State} {pick : Option Nat} (h : scanStep pick s = .ok t) : keepsInputs s t := by
  rcases scanStep_ok_cases h with ⟨i, hmove, _⟩ | ⟨_, rfl⟩ | ⟨_, rfl⟩
  · exact keepsInputs_laneMove hmove
  · exact keepsInputs_complete_of_mem _ ⟨rfl, rfl, rfl, rfl, rfl, rfl⟩ rfl
  · exact keepsInputs_refl _

/-- Settles O55. -/
theorem pdeNeverWritesItsInputs : Obligations.PdeNeverWritesItsInputs := by
  intro pick s t h
  rcases pdeStep_next_cases h with ⟨_, rfl⟩ | ⟨w, i, _, _, h⟩ | ⟨_, _, _, _, rfl⟩ | ⟨_, h⟩
  · exact keepsInputs_refl _
  · exact keepsInputs_exec h
  · exact keepsInputs_complete _ s
  · exact keepsInputs_scanStep h

/-! ### The result registers a command does not list -/

/-- With the results r in place of its own, s shows a difference at most in the registers that command i lists
(`30_encoding.md` R93). -/
def writesOnly (i : Instr) (s : State) (r : Results) : Prop :=
  ∀ reg, writesReg i reg = false → regValue { s with res := r } reg = regValue s reg

/-- It is enough to look at the registers outside a list of which i writes all. -/
theorem writesOnly_of_list {i : Instr} {s : State} {r : Results} (regs : List Reg)
    (hlist : ∀ reg ∈ regs, writesReg i reg = true)
    (hother : ∀ reg, reg ∉ regs → regValue { s with res := r } reg = regValue s reg) : writesOnly i s r := by
  intro reg hreg
  refine hother reg fun hmem => ?_
  rw [hlist reg hmem] at hreg
  cases hreg

theorem writesOnly_resBool {i : Instr} (hi : writesReg i .resb = true) (s : State) (b : Bool) :
    writesOnly i s { s.res with resBool := b } := by
  refine writesOnly_of_list [.resb] (by simpa using hi) fun reg hreg => ?_
  cases reg <;> first | rfl | simp at hreg

theorem writesOnly_resc {i : Instr} (hi : writesReg i .resc = true) (s : State) (c : ColorWord) :
    writesOnly i s { s.res with resc := c } := by
  refine writesOnly_of_list [.resc] (by simpa using hi) fun reg hreg => ?_
  cases reg <;> first | rfl | simp at hreg

theorem writesOnly_resp {i : Instr} (hi : writesReg i .resp = true) (s : State) (p : BitVec 40) :
    writesOnly i s { s.res with resp := p } := by
  refine writesOnly_of_list [.resp] (by simpa using hi) fun reg hreg => ?_
  cases reg <;> first | rfl | simp at hreg

theorem writesOnly_res0 {i : Instr} (hi : writesReg i .res0 = true) (s : State) (x : F64) :
    writesOnly i s { s.res with res0 := x } := by
  refine writesOnly_of_list [.res0] (by simpa using hi) fun reg hreg => ?_
  cases reg <;> first | rfl | simp at hreg

theorem writesOnly_triple {i : Instr} (hi : ∀ reg ∈ [Reg.res0, .res1, .res2], writesReg i reg = true) (s : State)
    (x y z : F64) : writesOnly i s { s.res with res0 := x, res1 := y, res2 := z } := by
  refine writesOnly_of_list [.res0, .res1, .res2] hi fun reg hreg => ?_
  cases reg <;> first | rfl | simp at hreg

theorem writesOnly_pixel (s : State) (v : Verdict) : writesOnly .pixel s (pixelResult v (withMaxDelta s)).res := by
  refine writesOnly_of_list [.count, .res0, .resc, .resb, .maxDelta] (by decide) fun reg hreg => ?_
  cases reg <;> first | rfl | simp at hreg

/-- How a command other than CMP ends: with an error, or with results in the registers it lists. -/
def helperEnd (i : Instr) (s t : State) : Prop :=
  (∃ e, t = raiseError e s) ∨ (∃ r, writesOnly i s r ∧ t = succeed { s with res := r })

theorem helperEnd_of_gates {i : Instr} {s t : State} {gate : Option CmdError} {body : Except Fault State}
    (h : behindGates gate s body = .next t) (hbody : body = .ok t → helperEnd i s t) : helperEnd i s t := by
  rcases (behindGates_next_iff _ _ _ _).1 h with ⟨e, _, rfl⟩ | ⟨_, h⟩
  · exact .inl ⟨e, rfl⟩
  · exact hbody h

/-- A command that computes a value and succeeds with the results that hold it. -/
theorem helperEnd_of_bind {α : Type} {i : Instr} {s t : State} {x : Except Fault α} {res : α → Results}
    (hres : ∀ a, writesOnly i s (res a))
    (h : (x >>= fun a => .ok (succeed { s with res := res a })) = .ok t) : helperEnd i s t := by
  obtain ⟨a, _, h⟩ := (bind_ok_iff _ _ _).1 h
  cases h
  exact .inr ⟨res a, hres a, rfl⟩

theorem helperEnd_of_succeed {i : Instr} {s t : State} {r : Results} (hres : writesOnly i s r)
    (h : t = succeed { s with res := r }) : helperEnd i s t := .inr ⟨r, hres, h⟩

theorem helperEnd_of_exec {i : Instr} (hi : i ≠ .cmp) {s t : State} (h : exec i s = .next t) : helperEnd i s t := by
  cases i with
  | cmp => exact absurd rfl hi
  | pixel => exact helperEnd_of_gates h (helperEnd_of_bind (writesOnly_pixel s))
  | dimeq =>
    cases h
    exact helperEnd_of_succeed (writesOnly_resBool rfl s _) rfl
  | ident => exact helperEnd_of_bind (writesOnly_resBool rfl s) ((settle_next_iff _ _).1 h)
  | pos sel1 =>
    refine helperEnd_of_gates h fun h => ?_
    cases h
    exact helperEnd_of_succeed (writesOnly_resp rfl s _) rfl
  | rdpix sel1 => exact helperEnd_of_gates h (helperEnd_of_bind fun c => writesOnly_resc rfl s (packColor c))
  | yiq =>
    cases h
    exact helperEnd_of_succeed (writesOnly_triple (by decide) s _ _ _) rfl
  | blendw =>
    cases h
    exact helperEnd_of_succeed (writesOnly_triple (by decide) s _ _ _) rfl
  | graybl =>
    refine helperEnd_of_gates h fun h => ?_
    cases h
    exact helperEnd_of_succeed (writesOnly_resc rfl s _) rfl
  | cdelta onlyY sel1 sel2 => exact helperEnd_of_gates h (helperEnd_of_bind (writesOnly_res0 rfl s))
  | samenb sel1 n => exact helperEnd_of_gates h (helperEnd_of_bind (writesOnly_resBool rfl s))
  | aa sel1 sel2 => exact helperEnd_of_gates h (helperEnd_of_bind (writesOnly_resBool rfl s))

/-- Without a forbidden access, so without `scramble`, a command ends in STATUS and its results alone. -/
theorem helperEnd_untouched {i : Instr} {s t : State} (hs : s.touched = false) (h : helperEnd i s t) :
    ∃ e r, writesOnly i s r ∧ t = finish e { s with res := r } := by
  rcases h with ⟨e, rfl⟩ | ⟨r, hr, rfl⟩
  · exact ⟨some e, s.res, fun _ _ => rfl, complete_untouched (some e) hs⟩
  · exact ⟨none, r, hr, complete_untouched none (s := { s with res := r }) hs⟩

/-- A completion shows in STATUS alone. -/
theorem regValue_finish (e : Option CmdError) (s : State) {reg : Reg} (h : reg ≠ .status) :
    regValue (finish e s) reg = regValue s reg := by
  cases reg <;> first | rfl | exact absurd rfl h

/-- Settles O45. -/
theorem helperCommandFrame : Obligations.HelperCommandFrame := by
  intro i s t hi hs h
  obtain ⟨e, r, hr, rfl⟩ := helperEnd_untouched hs (helperEnd_of_exec hi h)
  exact ⟨⟨rfl, rfl, rfl, rfl, rfl, rfl⟩, ⟨fun _ _ => rfl, fun _ _ => rfl⟩, ⟨rfl, rfl, rfl⟩, rfl, rfl, rfl, rfl, rfl,
    fun reg hstatus hreg => (regValue_finish e _ hstatus).trans (hr reg hreg)⟩

end Sys2Proof.Machine
end

section
/-! Without ALT_VALID the alternative colour has no effect (O57). Writing DIFF_COLOR_ALT commutes with every step of the
PDE: the units that read pixels do not look at it, the selector looks at it under ALT_VALID alone, and every update of the
state carries it along. -/

namespace Sys2Proof.Machine

/-- DIFF_COLOR_ALT holds v. -/
def withAlt (v : ColorWord) (s : State) : State := { s with opts := { s.opts with diffColorAlt := v } }

/-- An outcome with its next state changed. -/
def mapNext (g : State → State) : Host.Outcome State Fault Refusal → Host.Outcome State Fault Refusal
  | .next t => .next (g t)
  | .fault f => .fault f
  | .refused r => .refused r

/-! ### The units that read pixels -/

section
variable (v : ColorWord) (s : State)

theorem imgBytes_withAlt (sel : Sel) (off n : Nat) : imgBytes (withAlt v s) sel off n = imgBytes s sel off n := by
  induction n generalizing off with
  | zero => rfl
  | succ n ih =>
    have hbyte : imgByte (withAlt v s) sel off = imgByte s sel off := rfl
    rw [imgBytes, imgBytes, hbyte, ih]

theorem identicalBytes_withAlt : identicalBytes (withAlt v s) = identicalBytes s := by
  unfold identicalBytes
  simp only [imgBytes_withAlt]
  rfl

theorem rawPixel_withAlt (sel : Sel) (p : Point) : rawPixel (withAlt v s) sel p = rawPixel s sel p :=
  imgBytes_withAlt v s sel _ _

theorem canonPixel_withAlt (sel : Sel) (p : Point) : canonPixel (withAlt v s) sel p = canonPixel s sel p := rfl

theorem delta_withAlt (s1 : Sel) (p : Point) (s2 : Sel) (q : Point) (y : Bool) :
    delta (withAlt v s) s1 p s2 q y = delta s s1 p s2 q y := rfl

theorem sameLoop_withAlt (sel : Sel) (p : Point) (n : Nat) (qs : List Point) (c : Nat) :
    sameLoop (withAlt v s) sel p n qs c = sameLoop s sel p n qs c := by
  induction qs generalizing c with
  | nil => rfl
  | cons q qs ih =>
    rw [sameLoop, sameLoop]
    simp only [rawPixel_withAlt, ih]

theorem sameNeighbors_withAlt (sel : Sel) (p : Point) (n : Nat) :
    sameNeighbors (withAlt v s) sel p n = sameNeighbors s sel p n := sameLoop_withAlt v s sel p n _ _

theorem extremaLoop_withAlt (sel : Sel) (p : Point) (qs : List Point) (e : Extrema) :
    extremaLoop (withAlt v s) sel p qs e = extremaLoop s sel p qs e := by
  induction qs generalizing e with
  | nil => rfl
  | cons q qs ih =>
    rw [extremaLoop, extremaLoop]
    simp only [delta_withAlt, ih]

theorem antialiased_withAlt (sa sb : Sel) (p : Point) :
    antialiased (withAlt v s) sa sb p = antialiased s sa sb p := by
  unfold antialiased extremaVerdict sameInBoth
  simp only [extremaLoop_withAlt, sameNeighbors_withAlt]
  rfl

/-- The selector looks at DIFF_COLOR_ALT under ALT_VALID alone (`43_compare.md` R175). -/
theorem diffColorFor_withAlt (h : s.opts.flags.altValid = false) (d : F64) :
    diffColorFor (withAlt v s).opts d = diffColorFor s.opts d := by
  unfold diffColorFor
  have hflags : (withAlt v s).opts.flags = s.opts.flags := rfl
  rw [hflags, h]
  rfl

theorem colorFor_withAlt (h : s.opts.flags.altValid = false) (p : Point) (d : F64) (c : PixelClass) :
    colorFor (withAlt v s) p d c = colorFor s p d c := by
  cases c with
  | unchanged => rfl
  | antialiased => rfl
  | different => exact congrArg Except.ok (diffColorFor_withAlt v s h d)

theorem classify_withAlt (p : Point) : classify (withAlt v s) p = classify s p := by
  unfold classify overClass aaEither
  simp only [delta_withAlt, antialiased_withAlt]
  rfl

theorem judge_withAlt (h : s.opts.flags.altValid = false) (p : Point) : judge (withAlt v s) p = judge s p := by
  unfold judge
  simp only [classify_withAlt, colorFor_withAlt v s h]
  rfl

/-! ### Completions and gates -/

theorem complete_withAlt (e : Option CmdError) : complete e (withAlt v s) = withAlt v (complete e s) := by
  have htouch : (withAlt v s).touched = s.touched := rfl
  unfold complete
  rw [htouch]
  split <;> rfl

theorem zeroFill_withAlt : zeroFill (withAlt v s) = withAlt v (zeroFill s) := by
  have hout : (withAlt v s).opts.flags.outputEn = s.opts.flags.outputEn := rfl
  unfold zeroFill
  rw [hout]
  split <;> rfl

theorem startScan_withAlt : startScan (withAlt v s) = withAlt v (startScan s) :=
  zeroFill_withAlt v { withMaxDelta s with engine := .scanning, scan := Scan.clear }

theorem settle_map (r : Except Fault State) : settle (r.map (withAlt v)) = mapNext (withAlt v) (settle r) := by
  cases r <;> rfl

/-- A command behind the same gates, with a body that commutes. -/
theorem behindGates_withAlt {gate : Option CmdError} {body body' : Except Fault State}
    (h : body' = body.map (withAlt v)) :
    behindGates gate (withAlt v s) body' = mapNext (withAlt v) (behindGates gate s body) := by
  cases gate with
  | none => exact h ▸ settle_map v body
  | some e => exact congrArg Host.Outcome.next (complete_withAlt v s (some e))

end

/-- A success in states that differ in DIFF_COLOR_ALT. -/
theorem succeed_withAlt {v : ColorWord} {t t' : State} (h : t' = withAlt v t) :
    succeed t' = withAlt v (succeed t) := by
  subst h
  exact complete_withAlt v t none

/-- The same computation, with a state made of its value that commutes. -/
theorem bind_map_ok {α : Type} {v : ColorWord} {x x' : Except Fault α} {f f' : α → State} (hx : x' = x)
    (hf : ∀ a, f' a = withAlt v (f a)) :
    (x' >>= fun a => .ok (f' a)) = (x >>= fun a => .ok (f a) : Except Fault State).map (withAlt v) := by
  subst hx
  cases x' with
  | error e => rfl
  | ok a => exact congrArg Except.ok (hf a)

/-! ### The steps -/

theorem cmpPastIdentity_withAlt (v : ColorWord) (s : State) :
    cmpPastIdentity (withAlt v s) = withAlt v (cmpPastIdentity s) := by
  have hgates : hardwareGates (withAlt v s) cmpChecks = hardwareGates s cmpChecks := rfl
  unfold cmpPastIdentity
  rw [hgates]
  split
  · exact complete_withAlt v s _
  · exact startScan_withAlt v s

theorem exec_withAlt (v : ColorWord) (s : State) (h : s.opts.flags.altValid = false) (i : Instr) :
    exec i (withAlt v s) = mapNext (withAlt v) (exec i s) := by
  cases i with
  | cmp =>
    refine behindGates_withAlt v s ?_
    rw [identicalBytes_withAlt]
    cases identicalBytes s with
    | error f => rfl
    | ok same =>
      cases same with
      | true => exact congrArg Except.ok (succeed_withAlt rfl)
      | false => exact congrArg Except.ok (cmpPastIdentity_withAlt v s)
  | pixel => exact behindGates_withAlt v s (bind_map_ok (judge_withAlt v (withMaxDelta s) h _) fun d => succeed_withAlt rfl)
  | dimeq => exact congrArg Host.Outcome.next (succeed_withAlt rfl)
  | ident =>
    refine Eq.trans ?_ (settle_map v _)
    exact congrArg settle (bind_map_ok (identicalBytes_withAlt v s) fun b => succeed_withAlt rfl)
  | pos sel1 => exact behindGates_withAlt v s (congrArg Except.ok (succeed_withAlt rfl))
  | rdpix sel1 => exact behindGates_withAlt v s (bind_map_ok (canonPixel_withAlt v s sel1 _) fun c => succeed_withAlt rfl)
  | yiq => exact congrArg Host.Outcome.next (succeed_withAlt rfl)
  | blendw => exact congrArg Host.Outcome.next (succeed_withAlt rfl)
  | graybl => exact behindGates_withAlt v s (congrArg Except.ok (succeed_withAlt rfl))
  | cdelta onlyY sel1 sel2 =>
    exact behindGates_withAlt v s (bind_map_ok (delta_withAlt v s sel1 _ sel2 _ onlyY) fun d => succeed_withAlt rfl)
  | samenb sel1 n =>
    exact behindGates_withAlt v s (bind_map_ok (sameNeighbors_withAlt v s sel1 _ n) fun b => succeed_withAlt rfl)
  | aa sel1 sel2 =>
    exact behindGates_withAlt v s (bind_map_ok (antialiased_withAlt v s sel1 sel2 _) fun b => succeed_withAlt rfl)

theorem applyVerdict_withAlt (v : ColorWord) (s : State) (i : Nat) (d : Verdict) :
    applyVerdict (withAlt v s) i d = withAlt v (applyVerdict s i d) := by
  unfold applyVerdict
  split <;> rfl

theorem laneMove_withAlt (v : ColorWord) (s : State) (h : s.opts.flags.altValid = false) (i : Nat) :
    laneMove (withAlt v s) i = (laneMove s i).map (withAlt v) := by
  have hd : canDispatch (withAlt v s) i = canDispatch s i := rfl
  have hp : canPixelStep (withAlt v s) i = canPixelStep s i := rfl
  have hr : canRetire (withAlt v s) i = canRetire s i := rfl
  unfold laneMove
  rw [hd, hp, hr]
  split
  · rfl
  · split
    · exact bind_map_ok (judge_withAlt v s h _) (applyVerdict_withAlt v s i)
    · split <;> rfl

theorem join_withAlt (v : ColorWord) (s : State) : join (withAlt v s) = withAlt v (join s) := succeed_withAlt rfl

theorem defaultScanStep_withAlt (v : ColorWord) (s : State) (h : s.opts.flags.altValid = false) :
    defaultScanStep (withAlt v s) = (defaultScanStep s).map (withAlt v) := by
  have hfirst : firstActive (withAlt v s).scan.lanes = firstActive s.scan.lanes := rfl
  have hd : canDispatch (withAlt v s) 0 = canDispatch s 0 := rfl
  unfold defaultScanStep
  rw [hfirst, hd]
  cases firstActive s.scan.lanes with
  | some i => exact laneMove_withAlt v s h i
  | none =>
    dsimp only
    split
    · rfl
    · exact congrArg Except.ok (join_withAlt v s)

theorem chosenScanStep_withAlt (v : ColorWord) (s : State) (h : s.opts.flags.altValid = false) (i : Nat) :
    chosenScanStep (withAlt v s) i = (chosenScanStep s i).map (withAlt v) := by
  have he : laneEnabled (withAlt v s) i = laneEnabled s i := rfl
  have hj : canJoin (withAlt v s) = canJoin s := rfl
  unfold chosenScanStep
  rw [he, hj]
  split
  · exact laneMove_withAlt v s h i
  · split
    · exact congrArg Except.ok (join_withAlt v s)
    · rfl

theorem scanStep_withAlt (v : ColorWord) (s : State) (h : s.opts.flags.altValid = false) (pick : Option Nat) :
    scanStep pick (withAlt v s) = (scanStep pick s).map (withAlt v) := by
  cases pick with
  | none => exact defaultScanStep_withAlt v s h
  | some i => exact chosenScanStep_withAlt v s h i

/-- Writing DIFF_COLOR_ALT commutes with every step of the PDE. -/
theorem pdeStep_withAlt (v : ColorWord) (s : State) (h : s.opts.flags.altValid = false) (pick : Option Nat) :
    pdeStep pick (withAlt v s) = mapNext (withAlt v) (pdeStep pick s) := by
  have hengine : (withAlt v s).engine = s.engine := rfl
  unfold pdeStep
  rw [hengine]
  cases s.engine with
  | idle => rfl
  | accepted w =>
    dsimp only
    unfold runLatched
    split
    · exact exec_withAlt v s h _
    · exact congrArg Host.Outcome.next (complete_withAlt v s _)
  | scanning =>
    dsimp only
    rw [scanStep_withAlt v s h pick, settle_map]

/-- Settles O57. -/
theorem altColourWithoutAltValidHasNoEffect : Obligations.AltColourWithoutAltValidHasNoEffect := by
  intro pick s v h
  have hcomm := pdeStep_withAlt v s h pick
  refine ⟨fun t ht => ?_, fun f hf => ?_⟩
  · rw [ht] at hcomm
    exact hcomm
  · rw [hf] at hcomm
    exact hcomm

end Sys2Proof.Machine
end

section
/-! The pixel fetch: a passing precheck and VALID buffers (O17), the canonical read of each colour model and where it
stops (O20), and RDPIX, which packs it (O22). -/

namespace Sys2Proof.Machine

/-! ### VALID buffers and the precheck (`20_memory.md` R78, `60_exceptions.md` R212) -/

theorem Desc.valid_iff (d : Desc) :
    d.valid = true ↔ d.model.toNat ≤ 9 ∧ d.width * d.bpp ≤ d.rowBytes ∧ d.rowBytes * d.height ≤ d.length := by
  unfold Desc.valid
  rw [Bool.and_eq_true, Bool.and_eq_true, decide_eq_true_eq, decide_eq_true_eq, decide_eq_true_eq, and_assoc]

theorem Desc.inside_iff (d : Desc) (p : Point) : d.inside p = true ↔ p.x < d.width ∧ p.y < d.height := by
  unfold Desc.inside
  rw [Bool.and_eq_true, decide_eq_true_eq, decide_eq_true_eq]

theorem emptyCheck_eq_none_iff (s : State) (sel : Sel) :
    emptyCheck s sel = none ↔ (s.desc sel).w ≠ 0#16 ∧ (s.desc sel).h ≠ 0#16 := by
  have hw : (s.desc sel).width = 0 ↔ (s.desc sel).w = 0#16 := by
    rw [BitVec.toNat_eq]
    rfl
  have hh : (s.desc sel).height = 0 ↔ (s.desc sel).h = 0#16 := by
    rw [BitVec.toNat_eq]
    rfl
  simp [emptyCheck, Desc.empty, hw, hh]

theorem modelCheck_eq_none_iff (s : State) (sel : Sel) :
    modelCheck s sel = none ↔ (s.desc sel).model.toNat ≤ 9 := by
  simp [modelCheck]

theorem geometryCheck_eq_none_iff (s : State) (sel : Sel) :
    geometryCheck s sel = none ↔ (s.desc sel).width * (s.desc sel).bpp ≤ (s.desc sel).rowBytes ∧
      (s.desc sel).rowBytes * (s.desc sel).height ≤ (s.desc sel).length := by
  unfold geometryCheck
  split
  · simp only [reduceCtorEq, false_iff]
    omega
  · split <;> simp only [reduceCtorEq, false_iff, true_iff] <;> omega

theorem pointCheck_some_eq_none_iff (s : State) (p : PointReg) (bad : BadParam) (sel : Sel) :
    pointCheck s p bad (some sel) = none ↔ (s.desc sel).inside p.point = true := by
  simp [pointCheck]

/-- A precheck that raises nothing has passed the three checks of each of its buffers and those of its points. -/
theorem checks_of_precheck_eq_none {s : State} {c : Checks} (h : precheck s c = none) :
    (∀ sel ∈ c.bufs, emptyCheck s sel = none ∧ modelCheck s sel = none ∧ geometryCheck s sel = none) ∧
    pointCheck s s.ptP .pointP c.pointP = none ∧ pointCheck s s.ptQ .pointQ c.pointQ = none := by
  simp only [precheck, documentGates, hardwareGates, pointsCheck, Option.or_eq_none_iff,
    List.findSome?_eq_none_iff] at h
  obtain ⟨⟨hempty, _⟩, hmodel, hgeometry, _, hpoints⟩ := h
  exact ⟨fun sel hsel => ⟨hempty sel hsel, hmodel sel hsel, hgeometry sel hsel⟩, hpoints⟩

theorem valid_of_precheck_eq_none {s : State} {c : Checks} (h : precheck s c = none) {sel : Sel}
    (hsel : sel ∈ c.bufs) : (s.desc sel).valid = true ∧ (s.desc sel).w ≠ 0#16 ∧ (s.desc sel).h ≠ 0#16 := by
  obtain ⟨hempty, hmodel, hgeometry⟩ := (checks_of_precheck_eq_none h).1 sel hsel
  exact ⟨(Desc.valid_iff _).2 ⟨(modelCheck_eq_none_iff s sel).1 hmodel, (geometryCheck_eq_none_iff s sel).1 hgeometry⟩,
    (emptyCheck_eq_none_iff s sel).1 hempty⟩

/-- The pixel ends in its row, its row in the S·H bytes of the buffer, and these in LEN (`20_memory.md` R51, R78). -/
theorem pixelEnd_le_length {d : Desc} {p : Point} (hv : d.valid = true) (hp : d.inside p = true) :
    pixelOffset d p + d.bpp ≤ d.length := by
  obtain ⟨_, hrow, hlen⟩ := (Desc.valid_iff d).1 hv
  obtain ⟨hx, hy⟩ := (Desc.inside_iff d p).1 hp
  calc pixelOffset d p + d.bpp = p.y * d.rowBytes + (p.x + 1) * d.bpp := by
        rw [pixelOffset, Nat.add_mul, Nat.one_mul, Nat.add_assoc]
    _ ≤ p.y * d.rowBytes + d.width * d.bpp := Nat.add_le_add_left (Nat.mul_le_mul_right _ hx) _
    _ ≤ p.y * d.rowBytes + d.rowBytes := Nat.add_le_add_left hrow _
    _ = (p.y + 1) * d.rowBytes := by rw [Nat.add_mul, Nat.one_mul]
    _ ≤ d.height * d.rowBytes := Nat.mul_le_mul_right _ hy
    _ ≤ d.length := Nat.mul_comm d.height _ ▸ hlen

/-- Settles O17. -/
theorem validPixelsLieBelowLen : Obligations.ValidPixelsLieBelowLen := by
  refine ⟨Desc.valid_iff, fun s c h => ?_, fun d p hv hp => ?_⟩
  · obtain ⟨_, hP, hQ⟩ := checks_of_precheck_eq_none h
    refine ⟨fun sel hsel => valid_of_precheck_eq_none h hsel, fun sel hsel => ?_, fun sel hsel => ?_⟩
    · rw [hsel] at hP
      exact (pointCheck_some_eq_none_iff ..).1 hP
    · rw [hsel] at hQ
      exact (pointCheck_some_eq_none_iff ..).1 hQ
  · have hend := pixelEnd_le_length hv hp
    exact ⟨hend, Nat.lt_of_le_of_lt hend d.len.isLt⟩

/-! ### The canonical read (`20_memory.md` R61 to R69) -/

@[simp] theorem error_bind {α β : Type} (e : Fault) (f : α → Except Fault β) :
    ((.error e : Except Fault α) >>= f) = .error e := rfl

/-- The image bytes at the offsets ks from o, in the order of ks. -/
def readAt (s : State) (sel : Sel) (o : Nat) (ks : List Nat) : Except Fault (List Byte) :=
  ks.mapM fun k => imgByte s sel (o + k)

@[simp] theorem readAt_nil (s : State) (sel : Sel) (o : Nat) : readAt s sel o [] = .ok [] := rfl

theorem readAt_cons (s : State) (sel : Sel) (o k : Nat) (ks : List Nat) :
    readAt s sel o (k :: ks) = imgByte s sel (o + k) >>= fun v => readAt s sel o ks >>= fun vs => .ok (v :: vs) := by
  simp only [readAt, List.mapM_cons]
  rfl

theorem readAt_of_written {s : State} {sel : Sel} {o : Nat} {ks : List Nat} {v : Nat → Byte}
    (h : ∀ k ∈ ks, readByte s.mem (imgOf sel) (o + k) = some (v k)) : readAt s sel o ks = .ok (ks.map v) := by
  induction ks with
  | nil => rfl
  | cons k ks ih =>
    obtain ⟨hk, hks⟩ := List.forall_mem_cons.1 h
    rw [readAt_cons, (imgByte_ok_iff ..).2 hk, ih hks]
    rfl

/-- Offsets that rise are read up to the first one that nothing has written. -/
theorem readAt_first_unwritten {s : State} {sel : Sel} {o k : Nat} {ks : List Nat} (hrise : ks.Pairwise (· < ·))
    (hk : k ∈ ks) (hw : ∀ j ∈ ks, j < k → ∃ w, readByte s.mem (imgOf sel) (o + j) = some w)
    (hn : readByte s.mem (imgOf sel) (o + k) = none) :
    readAt s sel o ks = .error (.unwrittenByte sel (o + k)) := by
  induction ks with
  | nil => cases hk
  | cons j ks ih =>
    obtain ⟨hj, hrise⟩ := List.pairwise_cons.1 hrise
    obtain ⟨hwj, hwks⟩ := List.forall_mem_cons.1 hw
    rw [readAt_cons]
    rcases List.mem_cons.1 hk with rfl | hk
    · rw [(imgByte_error_iff ..).2 ⟨hn, rfl⟩, error_bind]
    · obtain ⟨w, hw⟩ := hwj (hj k hk)
      rw [(imgByte_ok_iff ..).2 hw, ok_bind, ih hrise hk hwks, error_bind]

/-- The colour a model makes of the bytes it needs. -/
def colourOf (s : State) (sel : Sel) (model : Nat) : List Byte → Except Fault Color
  | [v] =>
    if model ∈ [0, 1] then .ok ⟨v, v, v, 255#8⟩
    else if model ∈ [2, 3] then .ok ⟨255#8, 255#8, 255#8, v⟩
    else palEntry s sel v.toNat >>= fun e => .ok (unpackColor e)
  | [c0, c1, c2, c3] =>
    if model = 8 then
      .ok ⟨(Config.cmykToRgb c0 c1 c2 c3).1, (Config.cmykToRgb c0 c1 c2 c3).2.1, (Config.cmykToRgb c0 c1 c2 c3).2.2,
        255#8⟩
    else .ok ⟨c0, c1, c2, c3⟩
  | _ => .error (.noColourModel sel)

theorem neededBytes_of_reserved {m : Nat} (h : 9 < m) : neededBytes m = [] := by
  simp only [neededBytes, List.mem_cons, List.not_mem_nil, or_false]
  rw [if_neg (by omega), if_neg (by omega), if_neg (by omega)]

/-- The canonical read is the read of the needed bytes, in their order, and then the colour they make. -/
theorem canonPixel_eq_readAt (s : State) (sel : Sel) (p : Point) :
    canonPixel s sel p =
      readAt s sel (pixelOffset (s.desc sel) p) (neededBytes (s.desc sel).model.toNat) >>=
        colourOf s sel (s.desc sel).model.toNat := by
  unfold canonPixel
  split
  case h_11 =>
    have hreserved : 9 < (s.desc sel).model.toNat := by
      simp only [imp_false] at *
      omega
    rw [neededBytes_of_reserved hreserved]
    rfl
  all_goals
    rename_i hm
    simp [hm, neededBytes, readAt_cons, colourOf, canonGray, canonAlpha, canonRgba, canonCmyk, canonPaletted]

theorem neededBytes_rise (model : Nat) : (neededBytes model).Pairwise (· < ·) := by
  unfold neededBytes
  split
  · decide
  · split
    · decide
    · split <;> decide

section
variable {s : State} {sel : Sel} {m : Nat} (v : Nat → Byte)

theorem colourOf_gray (h : m ∈ [0, 1]) :
    colourOf s sel m ((neededBytes m).map v) = .ok ⟨v 0, v 0, v 0, 255#8⟩ := by
  fin_cases h <;> rfl

theorem colourOf_alpha (h : m ∈ [2, 3]) :
    colourOf s sel m ((neededBytes m).map v) = .ok ⟨255#8, 255#8, 255#8, v 0⟩ := by
  fin_cases h <;> rfl

theorem colourOf_rgba8 (h : m ∈ [4, 5]) :
    colourOf s sel m ((neededBytes m).map v) = .ok ⟨v 0, v 1, v 2, v 3⟩ := by
  fin_cases h <;> rfl

theorem colourOf_rgba16 (h : m ∈ [6, 7]) :
    colourOf s sel m ((neededBytes m).map v) = .ok ⟨v 0, v 2, v 4, v 6⟩ := by
  fin_cases h <;> rfl

theorem colourOf_cmyk (h : m = 8) :
    colourOf s sel m ((neededBytes m).map v) =
      .ok ⟨(Config.cmykToRgb (v 0) (v 1) (v 2) (v 3)).1, (Config.cmykToRgb (v 0) (v 1) (v 2) (v 3)).2.1,
        (Config.cmykToRgb (v 0) (v 1) (v 2) (v 3)).2.2, 255#8⟩ := by
  rw [h]
  rfl

theorem colourOf_paletted (h : m = 9) :
    colourOf s sel m ((neededBytes m).map v) = palEntry s sel (v 0).toNat >>= fun e => .ok (unpackColor e) := by
  rw [h]
  rfl

end

/-- Settles O20. -/
theorem canonicalReadOfEveryModel : Obligations.CanonicalReadOfEveryModel := by
  refine ⟨fun model => (bytesPerPixel_eq_bppTable model).1, fun s sel p o v ho => ?_⟩
  have hoff : pixelOffset (s.desc sel) p = o := ho.symm
  refine ⟨fun hwritten => ?_, fun k hk hw hn => ?_, fun k hk hw hn => ?_⟩
  · have hread : canonPixel s sel p =
        colourOf s sel (s.desc sel).model.toNat ((neededBytes (s.desc sel).model.toNat).map v) := by
      rw [canonPixel_eq_readAt, hoff, readAt_of_written hwritten, ok_bind]
    refine ⟨fun h => hread.trans (colourOf_gray v h), fun h => hread.trans (colourOf_alpha v h),
      fun h => hread.trans (colourOf_rgba8 v h), fun h => hread.trans (colourOf_rgba16 v h),
      fun h => hread.trans (colourOf_cmyk v h), fun e h he => ?_, fun h he => ?_⟩
    · rw [hread, colourOf_paletted v h, (palEntry_ok_iff ..).2 he]
      rfl
    · rw [hread, colourOf_paletted v h, (palEntry_error_iff ..).2 ⟨he, rfl⟩, error_bind]
  · rw [canonPixel_eq_readAt, hoff, readAt_first_unwritten (neededBytes_rise _) hk hw hn, error_bind]
  · rw [rawPixel, hoff]
    exact imgBytes_first_unwritten hk hw hn

/-! ### RDPIX (`43_compare.md` R171) -/

theorem ended_complete (e : Option CmdError) (s : State) : ended (complete e s) e := by
  rw [ended, busy_complete, complete_status]
  exact ⟨rfl, rfl, rfl⟩

/-- Without a forbidden access an error shows in STATUS alone (`60_exceptions.md` R211). -/
theorem refusedWith_raiseError {s : State} (hs : s.touched = false) (e : CmdError) :
    refusedWith s (raiseError e s) e := by
  refine ⟨ended_complete _ s, ?_⟩
  rw [raiseError_eq, complete_untouched _ hs]
  exact ⟨rfl, rfl, rfl, rfl, rfl, ⟨rfl, rfl, rfl, rfl, rfl, rfl⟩, rfl, rfl, rfl⟩

theorem extractLsb'_append_bytes (r g b a : Byte) :
    (r ++ g ++ b ++ a).extractLsb' 24 8 = r ∧ (r ++ g ++ b ++ a).extractLsb' 16 8 = g ∧
    (r ++ g ++ b ++ a).extractLsb' 8 8 = b ∧ (r ++ g ++ b ++ a).extractLsb' 0 8 = a := by
  refine ⟨?_, ?_, ?_, BitVec.extractLsb'_append_eq_right⟩
  · rw [BitVec.extractLsb'_append_eq_of_le (by decide), BitVec.extractLsb'_append_eq_of_le (by decide)]
    exact BitVec.extractLsb'_append_eq_left
  · rw [BitVec.extractLsb'_append_eq_of_le (by decide), BitVec.extractLsb'_append_eq_of_le (by decide)]
    exact BitVec.extractLsb'_append_eq_right
  · rw [BitVec.extractLsb'_append_eq_of_le (by decide)]
    exact BitVec.extractLsb'_append_eq_right

/-- The fields of a packed colour (`10_state.md` R12). -/
theorem packColor_fields (c : Color) :
    (packColor c).extractLsb' 24 8 = c.r ∧ (packColor c).extractLsb' 16 8 = c.g ∧
    (packColor c).extractLsb' 8 8 = c.b ∧ (packColor c).extractLsb' 0 8 = c.a :=
  extractLsb'_append_bytes c.r c.g c.b c.a

/-- A forbidden access does not reach RESC (`70_reset_and_hazards.md` R240). -/
@[simp] theorem complete_resc (e : Option CmdError) (s : State) : (complete e s).res.resc = s.res.resc := by
  unfold complete
  split <;> rfl

theorem exec_rdpix_of_precheck {s : State} {sel : Sel} (h : precheck s (oneBufferChecks sel) = none) :
    exec (.rdpix sel) s = settle (canonPixel s sel s.ptP.point >>= fun c =>
      .ok (succeed { s with res := { s.res with resc := packColor c } })) :=
  behindGates_none h s _

/-- Settles O22. -/
theorem rdpixPacksTheCanonicalColour : Obligations.RdpixPacksTheCanonicalColour := by
  refine ⟨fun sel => by cases sel <;> decide, fun s sel hs =>
    ⟨fun c hpre hc => ?_, fun f hpre hf => ?_, fun e he => ?_⟩⟩
  · have hstep : exec (.rdpix sel) s = .next (succeed { s with res := { s.res with resc := packColor c } }) := by
      rw [exec_rdpix_of_precheck hpre]
      exact congrArg (fun x => settle (x >>= _)) hc
    refine ⟨_, hstep, ended_complete _ _, ?_⟩
    rw [succeed_eq, complete_resc]
    exact packColor_fields c
  · rw [exec_rdpix_of_precheck hpre]
    exact congrArg (fun x => settle (x >>= _)) hf
  · exact ⟨_, behindGates_some he s _, refusedWith_raiseError hs e⟩

end Sys2Proof.Machine
end

section
/-! IDENT (O24): the comparison of two whole byte arrays, and where it stops. -/

namespace Sys2Proof.Machine

theorem Desc.length_eq_iff (d e : Desc) : d.length = e.length ↔ d.len = e.len := BitVec.toNat_inj

/-- Bytes that are all written can be read as one run. -/
theorem imgBytes_of_written {s : State} {sel : Sel} {n : Nat}
    (h : ∀ k, k < n → ∃ v, readByte s.mem (imgOf sel) k = some v) : ∃ l, imgBytes s sel 0 n = .ok l := by
  choose! v hv using h
  refine ⟨(List.range n).map v, (imgBytes_ok_iff ..).2 ⟨by simp, fun k hk => ?_⟩⟩
  rw [Nat.zero_add, hv k hk]
  simp [hk]

/-- Two runs of n bytes are equal when the spaces hold the same byte at each offset. -/
theorem imgBytes_eq_iff {s : State} {n : Nat} {la lb : List Byte} (ha : imgBytes s .a 0 n = .ok la)
    (hb : imgBytes s .b 0 n = .ok lb) :
    la = lb ↔ ∀ k, k < n → readByte s.mem .imgA k = readByte s.mem .imgB k := by
  obtain ⟨hla, ha⟩ := (imgBytes_ok_iff ..).1 ha
  obtain ⟨hlb, hb⟩ := (imgBytes_ok_iff ..).1 hb
  simp only [Nat.zero_add, imgOf] at ha hb
  constructor
  · rintro rfl k hk
    rw [ha k hk, hb k hk]
  · intro h
    refine List.ext_getElem? fun k => ?_
    by_cases hk : k < n
    · rw [← ha k hk, ← hb k hk, h k hk]
    · rw [List.getElem?_eq_none (by omega), List.getElem?_eq_none (by omega)]

/-- The two arrays of equal length as the identity gate reads them, those of A first (`20_memory.md` R72). -/
theorem identicalBytes_of_len_eq {s : State} (h : s.descA.len = s.descB.len) :
    identicalBytes s = imgBytes s .a 0 s.descA.length >>= fun a =>
      imgBytes s .b 0 s.descA.length >>= fun b => .ok (decide (a = b)) := by
  rw [identicalBytes, if_pos ((Desc.length_eq_iff ..).2 h), (Desc.length_eq_iff ..).2 h]

theorem identicalBytes_of_len_ne {s : State} (h : s.descA.len ≠ s.descB.len) : identicalBytes s = .ok false := by
  rw [identicalBytes, if_neg (mt (Desc.length_eq_iff ..).1 h)]

/-- Readable arrays are identical when their lengths and all their bytes are equal. -/
theorem identicalBytes_of_written {s : State}
    (h : s.descA.len = s.descB.len → ∀ k, k < s.descA.len.toNat →
      (∃ v, readByte s.mem .imgA k = some v) ∧ ∃ v, readByte s.mem .imgB k = some v) :
    ∃ same, identicalBytes s = .ok same ∧ (same = true ↔ s.descA.len = s.descB.len ∧
      ∀ k, k < s.descA.len.toNat → readByte s.mem .imgA k = readByte s.mem .imgB k) := by
  by_cases hlen : s.descA.len = s.descB.len
  · obtain ⟨la, ha⟩ := imgBytes_of_written (sel := .a) fun k hk => (h hlen k hk).1
    obtain ⟨lb, hb⟩ := imgBytes_of_written (sel := .b) fun k hk => (h hlen k hk).2
    refine ⟨decide (la = lb), ?_, ?_⟩
    · rw [identicalBytes_of_len_eq hlen, Desc.length, ha, ok_bind, hb, ok_bind]
    · rw [decide_eq_true_iff, imgBytes_eq_iff ha hb, and_iff_right hlen]
  · exact ⟨false, identicalBytes_of_len_ne hlen, by simp [hlen]⟩

/-- The whole array of a buffer stops at its first byte that nothing has written. -/
theorem imgBytes_array_unwritten {s : State} {sel : Sel} {n k : Nat} (hk : k < n)
    (hw : ∀ j, j < k → ∃ v, readByte s.mem (imgOf sel) j = some v) (hn : readByte s.mem (imgOf sel) k = none) :
    imgBytes s sel 0 n = .error (.unwrittenByte sel k) := by
  have hread := imgBytes_first_unwritten (s := s) (sel := sel) (off := 0) hk
  simp only [Nat.zero_add] at hread
  exact hread hw hn

theorem identicalBytes_unwritten_a {s : State} {k : Nat} (hlen : s.descA.len = s.descB.len)
    (hk : k < s.descA.len.toNat) (hw : ∀ j, j < k → ∃ v, readByte s.mem .imgA j = some v)
    (hn : readByte s.mem .imgA k = none) : identicalBytes s = .error (.unwrittenByte .a k) := by
  rw [identicalBytes_of_len_eq hlen, Desc.length, imgBytes_array_unwritten (sel := .a) hk hw hn, error_bind]

theorem identicalBytes_unwritten_b {s : State} {k : Nat} (hlen : s.descA.len = s.descB.len)
    (hk : k < s.descA.len.toNat) (ha : ∀ j, j < s.descA.len.toNat → ∃ v, readByte s.mem .imgA j = some v)
    (hw : ∀ j, j < k → ∃ v, readByte s.mem .imgB j = some v) (hn : readByte s.mem .imgB k = none) :
    identicalBytes s = .error (.unwrittenByte .b k) := by
  obtain ⟨la, ha⟩ := imgBytes_of_written (sel := .a) ha
  rw [identicalBytes_of_len_eq hlen, Desc.length, ha, ok_bind,
    imgBytes_array_unwritten (sel := .b) hk hw hn, error_bind]

/-- A forbidden access does not reach RESB (`70_reset_and_hazards.md` R240). -/
@[simp] theorem complete_resBool (e : Option CmdError) (s : State) :
    (complete e s).res.resBool = s.res.resBool := by
  unfold complete
  split <;> rfl

theorem exec_ident_of_ok {s : State} {same : Bool} (h : identicalBytes s = .ok same) :
    exec .ident s = .next (succeed { s with res := { s.res with resBool := same } }) :=
  congrArg (fun x => settle (x >>= _)) h

theorem exec_ident_of_error {s : State} {f : Fault} (h : identicalBytes s = .error f) :
    exec .ident s = .fault f :=
  congrArg (fun x => settle (x >>= _)) h

/-- Settles O24. -/
theorem identComparesWholeArrays : Obligations.IdentComparesWholeArrays := by
  refine ⟨by decide, fun s hwritten => ?_, fun s k hlen hk => ⟨fun hw hn => ?_, fun ha hw hn => ?_⟩⟩
  · obtain ⟨same, hsame, hiff⟩ := identicalBytes_of_written hwritten
    refine ⟨_, exec_ident_of_ok hsame, ended_complete _ _, ?_⟩
    rw [succeed_eq, complete_resBool]
    exact hiff
  · exact exec_ident_of_error (identicalBytes_unwritten_a hlen hk hw hn)
  · exact exec_ident_of_error (identicalBytes_unwritten_b hlen hk ha hw hn)

end Sys2Proof.Machine
end

section
/-! The steps of the scan and the bytes of OUT: what the step of a chosen lane does (O49), and that no step of the PDE
writes OUT beyond the image (O56). -/

namespace Sys2Proof.Machine

/-! ### DISPATCH, PIXELSTEP and RETIRE (`43_compare.md` R191) -/

/-- An event that names a lane with a step to take makes that lane move. -/
theorem step_laneChoice {s t : State} {i : Nat} {rest : List Event} (he : s.engine = .scanning) (hi : isLane i = true)
    (hen : laneEnabled s i = true) (hin : s.inbox = .engine i :: rest)
    (hmove : laneMove { s with inbox := rest } i = .ok t) : step s = .next t := by
  have hchosen : chosenScanStep { s with inbox := rest } i = .ok t :=
    (if_pos (Bool.and_eq_true_iff.2 ⟨hi, hen⟩)).trans hmove
  have hturn : turn s = .pde (some i) { s with inbox := rest } := by
    unfold turn
    rw [hin]
  have hpde : pdeStep (some i) { s with inbox := rest } = settle (chosenScanStep { s with inbox := rest } i) := by
    unfold pdeStep
    dsimp only
    rw [he]
    rfl
  rw [step, hturn]
  exact hpde.trans (congrArg settle hchosen)

theorem laneMove_of_free {s : State} {i : Nat} (ha : (s.lane i).active = false)
    (hrow : s.scan.rowNext < s.descA.height) : laneMove s i = .ok (dispatch s i) := by
  have hd : canDispatch s i = true := by simp [canDispatch, ha, hrow]
  rw [laneMove, if_pos hd]

theorem laneMove_of_inRow {s : State} {i : Nat} {v : Verdict} (ha : (s.lane i).active = true)
    (hx : (s.lane i).x < s.descA.width) (hv : judge s (lanePoint (s.lane i)) = .ok v) :
    laneMove s i = .ok (applyVerdict s i v) := by
  have hd : ¬canDispatch s i = true := by simp [canDispatch, ha]
  have hp : canPixelStep s i = true := by simp [canPixelStep, ha, hx]
  rw [laneMove, if_neg hd, if_pos hp, pixelStep, hv, ok_bind]

theorem laneMove_of_rowEnd {s : State} {i : Nat} (ha : (s.lane i).active = true)
    (hx : (s.lane i).x = s.descA.width) : laneMove s i = .ok (retire s i) := by
  have hd : ¬canDispatch s i = true := by simp [canDispatch, ha]
  have hp : ¬canPixelStep s i = true := by simp [canPixelStep, hx]
  have hr : canRetire s i = true := by simp [canRetire, ha, hx]
  rw [laneMove, if_neg hd, if_neg hp, if_pos hr]

theorem lane_applyVerdict {s : State} (hs : LaneTable.wf s.scan.lanes = true) (i j : Nat) (v : Verdict) :
    (applyVerdict s i v).lane j = if j = i then laneAfter (s.lane i) v.cls else s.lane j := by
  rw [State.lane, applyVerdict_lanes]
  exact lane_setLane hs i j _

@[simp] theorem applyVerdict_rowNext (s : State) (i : Nat) (v : Verdict) :
    (applyVerdict s i v).scan.rowNext = s.scan.rowNext := by
  unfold applyVerdict
  split <;> rfl

/-- A verdict that writes stores the four bytes of its colour at the lane's pixel, and no other byte of OUT. -/
theorem readByte_out_applyVerdict (s : State) (i : Nat) (v : Verdict) (k : Nat) :
    readByte (applyVerdict s i v).mem .out k =
      if v.wr = true ∧ outOffset s (lanePoint (s.lane i)) ≤ k ∧ k < outOffset s (lanePoint (s.lane i)) + 4
      then (colorBytes v.col)[k - outOffset s (lanePoint (s.lane i))]?
      else readByte s.mem .out k := by
  unfold applyVerdict
  cases v.wr with
  | true =>
    simp only [if_true, true_and]
    exact cellGet_writeBytes ..
  | false => rfl

theorem laneEnabled_of_active {s : State} {i : Nat} (h : (s.lane i).active = true) : laneEnabled s i = true := by
  rw [laneEnabled, h, Bool.true_or]

theorem laneEnabled_of_free {s : State} {i : Nat} (ha : (s.lane i).active = false)
    (hrow : s.scan.rowNext < s.descA.height) : laneEnabled s i = true := by
  simp [laneEnabled, canDispatch, ha, hrow]

/-- Settles O49. -/
theorem laneStepsByTheirRules : Obligations.LaneStepsByTheirRules := by
  intro s i l rest he hi hwf hin hl
  subst hl
  refine ⟨fun ha hrow => ?_, fun v ha hx hv => ?_, fun ha hx => ?_⟩
  · have hmove := laneMove_of_free (s := { s with inbox := rest }) ha hrow
    exact ⟨_, step_laneChoice he hi (laneEnabled_of_free ha hrow) hin hmove, rfl, fun j => lane_setLane hwf i j _,
      rfl, rfl, rfl, ⟨rfl, rfl, rfl, rfl, rfl, rfl⟩, he, rfl, rfl, rfl⟩
  · have hjudge : judge { s with inbox := rest } (lanePoint (s.lane i)) = .ok v :=
      (judge_congr (s := s) (t := { s with inbox := rest }) ⟨rfl, rfl, rfl, rfl, rfl, rfl, rfl, rfl⟩ _).trans hv
    have hmove := laneMove_of_inRow (s := { s with inbox := rest }) ha hx hjudge
    obtain ⟨hops, hcells⟩ := keepsInputs_applyVerdict { s with inbox := rest } i v
    refine ⟨_, step_laneChoice he hi (laneEnabled_of_active ha) hin hmove, applyVerdict_rowNext .., fun j => ?_,
      fun k => readByte_out_applyVerdict { s with inbox := rest } i v k, hcells, applyVerdict_res ..,
      applyVerdict_status .., hops, (applyVerdict_engine ..).trans he, applyVerdict_inbox ..,
      applyVerdict_hostData .., applyVerdict_freeCtr ..⟩
    have hafter : laneAfter (s.lane i) v.cls = ⟨true, (s.lane i).y, (s.lane i).x + 1,
        if v.cls = .different then (s.lane i).tally + 1 else (s.lane i).tally⟩ := by rw [laneAfter, ha]
    rw [← hafter]
    exact lane_applyVerdict (s := { s with inbox := rest }) hwf i j v
  · have hmove := laneMove_of_rowEnd (s := { s with inbox := rest }) ha hx
    exact ⟨_, step_laneChoice he hi (laneEnabled_of_active ha) hin hmove, rfl, fun j => lane_setLane hwf i j _,
      rfl, rfl, rfl, ⟨rfl, rfl, rfl, rfl, rfl, rfl⟩, he, rfl, rfl, rfl⟩

/-! ### OUT beyond the image (`20_memory.md` R52) -/

/-- Every byte of OUT at 4·W·H or above reads the same. -/
def keepsOutBeyond (s t : State) : Prop := ∀ k, outBytes s ≤ k → readByte t.mem .out k = readByte s.mem .out k

theorem keepsOutBeyond_of_mem {s t : State} (h : t.mem = s.mem) : keepsOutBeyond s t := by
  intro k _
  rw [h]

/-- A fill of the image's bytes. -/
theorem keepsOutBeyond_of_fill {s t : State} {f : Nat → Byte}
    (h : t.mem = { s.mem with out := fillBytes s.mem.out (outBytes s) f }) : keepsOutBeyond s t := by
  intro k hk
  rw [h]
  exact (cellGet_fillBytes ..).trans (if_neg (by omega))

theorem keepsOutBeyond_complete {s t : State} (e : Option CmdError) (hmem : t.mem = s.mem)
    (hdesc : t.descA = s.descA) : keepsOutBeyond s (complete e t) := by
  unfold complete
  split
  · refine keepsOutBeyond_of_fill (f := fun k => (Config.freeValue (t.freeCtr + 2 + k)).setWidth 8) ?_
    rw [← hmem, outBytes, ← hdesc]
    rfl
  · exact keepsOutBeyond_of_mem hmem

theorem keepsOutBeyond_startScan (s : State) : keepsOutBeyond s (startScan s) := by
  unfold startScan zeroFill
  split
  · exact keepsOutBeyond_of_fill rfl
  · exact keepsOutBeyond_of_mem rfl

/-- The four bytes of a pixel inside A's rectangle lie below 4·W·H. -/
theorem outOffset_add_four_le_outBytes {s : State} {p : Point} (hp : s.descA.inside p = true) :
    outOffset s p + 4 ≤ outBytes s := by
  obtain ⟨hx, hy⟩ := (Desc.inside_iff ..).1 hp
  calc outOffset s p + 4 = 4 * (p.y * s.descA.width + (p.x + 1)) := by unfold outOffset; omega
    _ ≤ 4 * (p.y * s.descA.width + s.descA.width) := by omega
    _ = 4 * ((p.y + 1) * s.descA.width) := by rw [Nat.add_mul, Nat.one_mul]
    _ ≤ 4 * (s.descA.height * s.descA.width) := Nat.mul_le_mul_left _ (Nat.mul_le_mul_right _ hy)
    _ = outBytes s := by rw [Nat.mul_comm s.descA.height]; rfl

theorem keepsOutBeyond_applyVerdict {s : State} {i : Nat} (v : Verdict)
    (hp : s.descA.inside (lanePoint (s.lane i)) = true) : keepsOutBeyond s (applyVerdict s i v) := by
  intro k hk
  have hend := outOffset_add_four_le_outBytes hp
  rw [readByte_out_applyVerdict, if_neg (by omega)]

/-- The pixel of a lane that may step is inside A's rectangle. -/
theorem inside_of_canPixelStep {s : State} {i : Nat} (hs : scanLegal s) (h : canPixelStep s i = true) :
    s.descA.inside (lanePoint (s.lane i)) = true := by
  obtain ⟨hrow, hin, _⟩ := hs
  obtain ⟨hact, hx⟩ := Bool.and_eq_true_iff.1 h
  exact (Desc.inside_iff ..).2 ⟨of_decide_eq_true hx, Nat.lt_of_lt_of_le (hin i hact).1 hrow⟩

theorem keepsOutBeyond_laneMove {s t : State} {i : Nat} (hs : scanLegal s) (h : laneMove s i = .ok t) :
    keepsOutBeyond s t := by
  rcases laneMove_ok_cases h with ⟨_, rfl⟩ | ⟨hp, v, _, rfl⟩ | ⟨_, rfl⟩ | ⟨_, _, _, rfl⟩
  · exact keepsOutBeyond_of_mem rfl
  · exact keepsOutBeyond_applyVerdict v (inside_of_canPixelStep hs hp)
  · exact keepsOutBeyond_of_mem rfl
  · exact keepsOutBeyond_of_mem rfl

theorem keepsOutBeyond_scanStep {s t : State} {pick : Option Nat} (hs : scanLegal s) (h : scanStep pick s = .ok t) :
    keepsOutBeyond s t := by
  rcases scanStep_ok_cases h with ⟨i, hmove, _⟩ | ⟨_, rfl⟩ | ⟨_, rfl⟩
  · exact keepsOutBeyond_laneMove hs hmove
  · exact keepsOutBeyond_complete _ rfl rfl
  · exact keepsOutBeyond_of_mem rfl

theorem keepsOutBeyond_exec {i : Instr} {s t : State} (h : exec i s = .next t) : keepsOutBeyond s t := by
  by_cases hi : i = .cmp
  · subst hi
    rcases execCmp_next_cases h with ⟨e, _, rfl⟩ | ⟨_, _, rfl⟩ | ⟨_, _, e, _, rfl⟩ | ⟨_, _, _, rfl⟩
    · exact keepsOutBeyond_complete _ rfl rfl
    · exact keepsOutBeyond_complete _ rfl rfl
    · exact keepsOutBeyond_complete _ rfl rfl
    · exact keepsOutBeyond_startScan s
  · rcases execHelper_next_cases hi h with ⟨e, rfl⟩ | ⟨r, rfl⟩
    · exact keepsOutBeyond_complete _ rfl rfl
    · exact keepsOutBeyond_complete _ rfl rfl

/-- Settles O56: the invariant puts every lane's pixel inside the image. -/
theorem outBeyondTheImageIsUntouched : Obligations.OutBeyondTheImageIsUntouched := by
  intro pick s t k hs h hk
  suffices keepsOutBeyond s t from this k hk
  obtain ⟨_, _, _, _, hscan⟩ := hs
  rcases pdeStep_next_cases h with ⟨_, rfl⟩ | ⟨w, i, _, _, h⟩ | ⟨_, _, _, _, rfl⟩ | ⟨he, h⟩
  · exact keepsOutBeyond_of_mem rfl
  · exact keepsOutBeyond_exec h
  · exact keepsOutBeyond_complete _ rfl rfl
  · exact keepsOutBeyond_scanStep (hscan he) h

end Sys2Proof.Machine
end

section
/-! The host's accesses to the five spaces with BUSY = 0 (O59). -/

namespace Sys2Proof.Machine

/-! ### Runs -/

theorem runSteps_succ_of_step (k : Nat) {s t : State} (h : step s = .next t) :
    runSteps (k + 1) s = runSteps k t := by
  have hcore : Sys2Proof.core.step s = .next t := h
  simp only [runSteps, Host.Core.run, hcore]
  rfl

theorem runSteps_two {s t u : State} (hfirst : step s = .next t) (hsecond : step t = .next u) :
    runSteps 2 s = .next u :=
  (runSteps_succ_of_step 1 hfirst).trans (runSteps_succ_of_step 0 hsecond)

/-! ### The events of the spaces -/

theorem step_store {s : State} {sp : ByteSpace} {off : Nat} {v : Byte} {rest : List Event}
    (h : s.inbox = .store sp off v :: rest) : step s = hostStore sp off v { s with inbox := rest } := by
  unfold step turn
  rw [h]
  rfl

theorem step_load {s : State} {sp : ByteSpace} {off : Nat} {rest : List Event} (h : s.inbox = .load sp off :: rest) :
    step s = hostLoad sp off { s with inbox := rest } := by
  unfold step turn
  rw [h]
  rfl

theorem step_palStore {s : State} {sel : Sel} {i : Nat} {v : ColorWord} {rest : List Event}
    (h : s.inbox = .palStore sel i v :: rest) : step s = hostPalStore sel i v { s with inbox := rest } := by
  unfold step turn
  rw [h]
  rfl

theorem step_palLoad {s : State} {sel : Sel} {i : Nat} {rest : List Event} (h : s.inbox = .palLoad sel i :: rest) :
    step s = hostPalLoad sel i { s with inbox := rest } := by
  unfold step turn
  rw [h]
  rfl

/-! ### Accesses while idle (`20_memory.md` R54) -/

theorem step_store_idle {s : State} {sp : ByteSpace} {off : Nat} {v : Byte} {rest : List Event} (hb : s.busy = false)
    (hoff : off < spaceSize sp) (hin : s.inbox = .store sp off v :: rest) :
    step s = .next { s with inbox := rest, mem := setSpace s.mem sp (cellPut (spaceOf s.mem sp) off v) } := by
  have hidle : State.busy { s with inbox := rest } = false := hb
  rw [step_store hin, hostStore, if_pos hoff, hidle]
  rfl

theorem step_palStore_idle {s : State} {sel : Sel} {i : Nat} {v : ColorWord} {rest : List Event} (hb : s.busy = false)
    (hi : i < palSize) (hin : s.inbox = .palStore sel i v :: rest) :
    step s = .next { s with inbox := rest, mem := setPal s.mem sel (cellPut (palOf s.mem sel) i v) } := by
  have hidle : State.busy { s with inbox := rest } = false := hb
  rw [step_palStore hin, hostPalStore, if_pos hi, hidle]
  rfl

theorem step_load_idle_written {s : State} {sp : ByteSpace} {off : Nat} {v : Byte} {rest : List Event}
    (hb : s.busy = false) (hoff : off < spaceSize sp) (h : readByte s.mem sp off = some v)
    (hin : s.inbox = .load sp off :: rest) :
    step s = .next { s with inbox := rest, hostData := v.setWidth 64 } := by
  have hidle : State.busy { s with inbox := rest } = false := hb
  rw [step_load hin, hostLoad, if_pos hoff, hidle, h]
  rfl

theorem step_load_idle_unwritten {s : State} {sp : ByteSpace} {off : Nat} {rest : List Event} (hb : s.busy = false)
    (hoff : off < spaceSize sp) (h : readByte s.mem sp off = none) (hin : s.inbox = .load sp off :: rest) :
    step s = .refused .hostReadUnwritten := by
  have hidle : State.busy { s with inbox := rest } = false := hb
  rw [step_load hin, hostLoad, if_pos hoff, hidle, h]
  rfl

theorem step_palLoad_idle_written {s : State} {sel : Sel} {i : Nat} {v : ColorWord} {rest : List Event}
    (hb : s.busy = false) (hi : i < palSize) (h : cellGet (palOf s.mem sel) i = some v)
    (hin : s.inbox = .palLoad sel i :: rest) :
    step s = .next { s with inbox := rest, hostData := v.setWidth 64 } := by
  have hidle : State.busy { s with inbox := rest } = false := hb
  rw [step_palLoad hin, hostPalLoad, if_pos hi, hidle, h]
  rfl

theorem step_palLoad_idle_unwritten {s : State} {sel : Sel} {i : Nat} {rest : List Event} (hb : s.busy = false)
    (hi : i < palSize) (h : cellGet (palOf s.mem sel) i = none) (hin : s.inbox = .palLoad sel i :: rest) :
    step s = .refused .hostReadUnwritten := by
  have hidle : State.busy { s with inbox := rest } = false := hb
  rw [step_palLoad hin, hostPalLoad, if_pos hi, hidle, h]
  rfl

/-! ### The cells after a store -/

theorem readByte_store (m : Spaces) (sp sp' : ByteSpace) (off off' : Nat) (v : Byte) :
    readByte (setSpace m sp (cellPut (spaceOf m sp) off v)) sp' off' =
      if sp' = sp ∧ off' = off then some v else readByte m sp' off' := by
  unfold readByte
  by_cases h : sp' = sp
  · subst h
    rw [spaceOf_setSpace_same, cellGet_cellPut]
    simp only [true_and]
  · rw [spaceOf_setSpace_other _ _ h, if_neg (fun hc => h hc.1)]

theorem entry_palStore (m : Spaces) (sel sel' : Sel) (i i' : Nat) (v : ColorWord) :
    cellGet (palOf (setPal m sel (cellPut (palOf m sel) i v)) sel') i' =
      if sel' = sel ∧ i' = i then some v else cellGet (palOf m sel') i' := by
  by_cases h : sel' = sel
  · subst h
    rw [palOf_setPal_same, cellGet_cellPut]
    simp only [true_and]
  · rw [palOf_setPal_other _ _ h, if_neg (fun hc => h hc.1)]

/-- No register shows a space or what is outside the PDE. -/
theorem regValue_of_mem_and_outside (s : State) (m : Spaces) (d : Word) (es : List Event) (r : Reg) :
    regValue { s with mem := m, hostData := d, inbox := es } r = regValue s r := by
  cases r <;> rfl

/-- Settles O59. -/
theorem idleStoreThenLoad : Obligations.IdleStoreThenLoad := by
  refine ⟨fun s sp off v rest hb hoff hin => ?_, fun s sel i v rest hb hi hin => ?_,
    fun s sp off rest hb hoff hn hin => step_load_idle_unwritten hb hoff hn hin,
    fun s sel i rest hb hi hn hin => step_palLoad_idle_unwritten hb hi hn hin⟩
  · have hread := (readByte_store s.mem sp sp off off v).trans (if_pos ⟨rfl, rfl⟩)
    have hload := step_load_idle_written
      (s := { s with inbox := .load sp off :: rest, mem := setSpace s.mem sp (cellPut (spaceOf s.mem sp) off v) })
      hb hoff hread rfl
    exact ⟨_, runSteps_two (step_store_idle hb hoff hin) hload, rfl, rfl,
      fun sp' off' => readByte_store s.mem sp sp' off off' v,
      fun sel i => congrArg (cellGet · i) (palOf_setSpace ..), regValue_of_mem_and_outside s _ _ rest, rfl, rfl⟩
  · have hread := (entry_palStore s.mem sel sel i i v).trans (if_pos ⟨rfl, rfl⟩)
    have hload := step_palLoad_idle_written
      (s := { s with inbox := .palLoad sel i :: rest, mem := setPal s.mem sel (cellPut (palOf s.mem sel) i v) })
      hb hi hread rfl
    exact ⟨_, runSteps_two (step_palStore_idle hb hi hin) hload, rfl, rfl,
      fun sel' i' => entry_palStore s.mem sel sel' i i' v,
      fun sp off => congrArg (cellGet · off) (spaceOf_setPal ..), regValue_of_mem_and_outside s _ _ rest, rfl, rfl⟩

end Sys2Proof.Machine
end

section
/-! The decoder and the encoder (O1, O2, O3, O4). A row of the table is an opcode with the fields it uses: the mask leaves
exactly those fields free and the match holds 0 in all the others. So a word matches at most one row, and which row
follows from OP and from the fields that are set. -/

namespace Sys2Proof

/-! ### The columns "mask" and "match" (`30_encoding.md` R91) -/

/-- The column "OP" of the table: the row's match in bits 7:0. -/
def rowOp (r : Row) : BitVec 8 := opOf (rowMatch r)

theorem mem_allRows (r : Row) : r ∈ allRows := by cases r <;> decide

theorem rowOp_injective {r r' : Row} (h : rowOp r = rowOp r') : r = r' := by
  have hall : ∀ r ∈ allRows, ∀ r' ∈ allRows, rowOp r = rowOp r' → r = r' := by decide
  exact hall r (mem_allRows r) r' (mem_allRows r') h

/-- The assigned opcodes are 0x01 to 0x0C (`30_encoding.md` R94). -/
theorem exists_rowOp_eq_iff (op : BitVec 8) : (∃ r, op = rowOp r) ↔ ¬(op = 0#8 ∨ 0x0D#8 ≤ op) := by
  have hassigned : ∀ op : BitVec 8, ¬(op = 0#8 ∨ 0x0D#8 ≤ op) → ∃ r ∈ allRows, op = rowOp r := by decide
  constructor
  · rintro ⟨r, rfl⟩
    cases r <;> decide
  · exact fun h => (hassigned op h).imp fun _ hr => hr.2

/-- The match holds the opcode alone. -/
theorem rowMatch_unset (r : Row) :
    (rowMatch r).getLsbD 11 = false ∧ (rowMatch r).extractLsb' 16 16 = 0#16 ∧ (rowMatch r).getLsbD 8 = false ∧
    (rowMatch r).getLsbD 9 = false ∧ (rowMatch r).getLsbD 10 = false ∧ (rowMatch r).extractLsb' 12 4 = 0#4 := by
  cases r <;> decide

/-- Every mask fixes OP and the reserved bits. -/
theorem rowMask_fixed (r : Row) :
    opOf (rowMask r) = BitVec.allOnes 8 ∧ (rowMask r).getLsbD 11 = true ∧
    (rowMask r).extractLsb' 16 16 = BitVec.allOnes 16 := by
  cases r <;> decide

theorem rowMask_onlyY (r : Row) : (rowMask r).getLsbD 8 = !decide (rowOp r = 0x0A#8) := by cases r <;> decide

theorem rowMask_sel1 (r : Row) :
    (rowMask r).getLsbD 9 = !decide (rowOp r ∈ [0x05#8, 0x06#8, 0x0A#8, 0x0B#8, 0x0C#8]) := by
  cases r <;> decide

theorem rowMask_sel2 (r : Row) : (rowMask r).getLsbD 10 = !decide (rowOp r ∈ [0x0A#8, 0x0C#8]) := by
  cases r <;> decide

theorem rowMask_n (r : Row) :
    (rowMask r).extractLsb' 12 4 = if rowOp r = 0x0B#8 then 0#4 else BitVec.allOnes 4 := by
  cases r <;> decide

/-! ### A word by its fields (`30_encoding.md` R90) -/

/-- Two words are equal when OP, ONLY_Y, SEL1, SEL2, N and the reserved bits are. -/
theorem word_eq_iff (u v : CmdWord) :
    u = v ↔ opOf u = opOf v ∧ u.getLsbD 11 = v.getLsbD 11 ∧ u.extractLsb' 16 16 = v.extractLsb' 16 16 ∧
      u.getLsbD 8 = v.getLsbD 8 ∧ u.getLsbD 9 = v.getLsbD 9 ∧ u.getLsbD 10 = v.getLsbD 10 ∧
      u.extractLsb' 12 4 = v.extractLsb' 12 4 := by
  constructor
  · rintro rfl
    exact ⟨rfl, rfl, rfl, rfl, rfl, rfl, rfl⟩
  rintro ⟨hop, h11, hhigh, h8, h9, h10, hn⟩
  have hpart : ∀ {lo len : Nat}, u.extractLsb' lo len = v.extractLsb' lo len →
      ∀ i, lo ≤ i → i < lo + len → u.getLsbD i = v.getLsbD i := by
    intro lo len h i hlo hi
    have hbit := congrArg (·.getLsbD (i - lo)) h
    simpa [BitVec.getLsbD_extractLsb', Nat.add_sub_cancel' hlo, show i - lo < len by omega] using hbit
  refine BitVec.eq_of_getLsbD_eq fun i hi => ?_
  obtain h | rfl | rfl | rfl | rfl | ⟨hlo, hlt⟩ | h :
      i < 8 ∨ i = 8 ∨ i = 9 ∨ i = 10 ∨ i = 11 ∨ (12 ≤ i ∧ i < 16) ∨ 16 ≤ i := by omega
  · exact hpart hop i (Nat.zero_le i) (by omega)
  · exact h8
  · exact h9
  · exact h10
  · exact h11
  · exact hpart hn i hlo hlt
  · exact hpart hhigh i h hi

/-- No reserved bit is set and no field that the command of OP does not use (`30_encoding.md` R91, R94). -/
def FieldsLegal (w : CmdWord) : Prop :=
  w.getLsbD 11 = false ∧ w.extractLsb' 16 16 = 0#16 ∧
  (w.getLsbD 8 = true → opOf w = 0x0A#8) ∧
  (w.getLsbD 9 = true → opOf w ∈ [0x05#8, 0x06#8, 0x0A#8, 0x0B#8, 0x0C#8]) ∧
  (w.getLsbD 10 = true → opOf w ∈ [0x0A#8, 0x0C#8]) ∧
  (w.extractLsb' 12 4 ≠ 0#4 → opOf w = 0x0B#8)

/-- A masked bit is clear when the bit is clear or the mask leaves it free. -/
theorem and_not_decide_eq_false_iff (b : Bool) (P : Prop) [Decidable P] :
    (b && !decide P) = false ↔ (b = true → P) := by
  cases b <;> simp

/-- A masked field is 0 when the field is 0 or the mask leaves it free. -/
theorem and_free_field_eq_zero_iff {n : Nat} (x : BitVec n) (P : Prop) [Decidable P] :
    x &&& (if P then 0#n else BitVec.allOnes n) = 0#n ↔ (x ≠ 0#n → P) := by
  split
  · simp_all
  · rw [BitVec.and_allOnes]
    tauto

theorem opOf_and (u v : CmdWord) : opOf (u &&& v) = opOf u &&& opOf v := BitVec.extractLsb'_and

/-- A word matches a row exactly when it has the row's opcode and no other bit set than those of the fields the row
uses. -/
theorem rowMatches_iff (w : CmdWord) (r : Row) : rowMatches w r = true ↔ opOf w = rowOp r ∧ FieldsLegal w := by
  obtain ⟨hop, h11, hhigh⟩ := rowMask_fixed r
  obtain ⟨u11, uhigh, u8, u9, u10, un⟩ := rowMatch_unset r
  rw [rowMatches, beq_iff_eq, word_eq_iff, opOf_and, hop, BitVec.and_allOnes, ← rowOp, u11, uhigh, u8, u9, u10, un]
  refine and_congr_right fun hw => ?_
  simp only [FieldsLegal, hw, BitVec.getLsbD_and, BitVec.extractLsb'_and, h11, hhigh, rowMask_onlyY, rowMask_sel1,
    rowMask_sel2, rowMask_n, BitVec.and_allOnes, Bool.and_true, and_not_decide_eq_false_iff, and_free_field_eq_zero_iff]

/-- Settles O3: the two rows have the word's opcode. -/
theorem atMostOneRowMatches : Obligations.AtMostOneRowMatches := by
  intro w r r' h h'
  obtain ⟨hop, _⟩ := (rowMatches_iff w r).1 h
  obtain ⟨hop', _⟩ := (rowMatches_iff w r').1 h'
  exact rowOp_injective (hop.symm.trans hop')

/-! ### The decoder (`30_encoding.md` R98) -/

/-- A word decodes to the command of the row it matches. -/
theorem decodeWord_eq_ok_iff (w : CmdWord) (i : Instr) :
    decodeWord w = .ok i ↔ ∃ r, rowMatches w r = true ∧ rowInstr (fieldsOf w) r = i := by
  unfold decodeWord
  split
  · rename_i r hr
    have hmatch := List.find?_some hr
    constructor
    · intro h
      cases h
      exact ⟨r, hmatch, rfl⟩
    · rintro ⟨r', hr', rfl⟩
      rw [atMostOneRowMatches w r r' hmatch hr']
  · rename_i hnone
    refine iff_of_false (fun h => nomatch h) ?_
    rintro ⟨r, hr, _⟩
    exact List.find?_eq_none.1 hnone r (mem_allRows r) hr

/-- A word is illegal when it matches no row. -/
theorem decodeWord_error_iff (w : CmdWord) : (∃ e, decodeWord w = .error e) ↔ ∀ r, rowMatches w r ≠ true := by
  constructor
  · rintro ⟨e, he⟩ r hr
    have hok := (decodeWord_eq_ok_iff w _).2 ⟨r, hr, rfl⟩
    rw [he] at hok
    cases hok
  · intro h
    cases hw : decodeWord w with
    | error e => exact ⟨e, rfl⟩
    | ok i =>
      obtain ⟨r, hr, _⟩ := (decodeWord_eq_ok_iff w i).1 hw
      exact absurd hr (h r)

/-- The grounds on which a word matches no row: the opcode, or a bit that must be 0. -/
theorem forall_not_rowMatches_iff (w : CmdWord) :
    (∀ r, rowMatches w r ≠ true) ↔ (opOf w = 0#8 ∨ 0x0D#8 ≤ opOf w) ∨ ¬FieldsLegal w := by
  rw [← not_iff_not, not_or, ← exists_rowOp_eq_iff]
  simp [rowMatches_iff]

/-- Settles O2: the negation of `FieldsLegal`, ground by ground. -/
theorem illegalWordsByField : Obligations.IllegalWordsByField := by
  intro w
  rw [decodeWord_error_iff, forall_not_rowMatches_iff, FieldsLegal]
  simp only [Classical.not_and_iff_not_or_not, Classical.not_imp, Bool.not_eq_false, or_assoc, ne_eq]

/-! ### The encoder (`30_encoding.md` R97) -/

/-- The selector bit of the buffer that a bit selects is the bit. -/
@[simp] theorem selBit_selOfBit (bit : Bool) : selBit (selOfBit bit) = bit := by cases bit <;> rfl

@[simp] theorem selOfBit_selBit (s : Sel) : selOfBit (selBit s) = s := by cases s <;> rfl

/-- Each field of a word, put back, is the word masked to the field. -/
theorem onlyYField_of_word (w : CmdWord) : onlyYField (w.getLsbD 8) = w &&& 0x00000100#32 :=
  (BitVec.and_twoPow w 8).symm

theorem sel1Field_of_word (w : CmdWord) : sel1Field (selOfBit (w.getLsbD 9)) = w &&& 0x00000200#32 := by
  rw [sel1Field, selBit_selOfBit]
  exact (BitVec.and_twoPow w 9).symm

theorem sel2Field_of_word (w : CmdWord) : sel2Field (selOfBit (w.getLsbD 10)) = w &&& 0x00000400#32 := by
  rw [sel2Field, selBit_selOfBit]
  exact (BitVec.and_twoPow w 10).symm

theorem nField_of_word (w : CmdWord) : nField (w.extractLsb' 12 4).toNat = w &&& 0x0000F000#32 := by
  have hmask : ∀ i < 32, (0x0000F000#32).getLsbD i = (decide (12 ≤ i) && decide (i < 16)) := by decide
  refine BitVec.eq_of_getLsbD_eq fun i hi => ?_
  rw [nField, BitVec.ofNat_toNat, BitVec.getLsbD_shiftLeft, BitVec.getLsbD_setWidth, BitVec.getLsbD_extractLsb',
    BitVec.getLsbD_and, hmask i hi]
  by_cases h12 : 12 ≤ i
  · have hsub : i - 12 < 4 ↔ i < 16 := by omega
    simp [hi, h12, hsub, show i - 12 < 32 by omega, show ¬i < 12 by omega, Bool.and_comm]
  · simp [h12, show i < 12 by omega]

/-- The command of a row with the fields of w assembles to the row's match with the bits of w that the mask leaves free:
each used field is w masked to it, and together they are w masked to all of them. -/
theorem encode_rowInstr (w : CmdWord) (r : Row) :
    encode (rowInstr (fieldsOf w) r) = rowMatch r ||| (w &&& ~~~rowMask r) := by
  cases r <;>
    simp only [rowInstr, fieldsOf, encode, rowMatch, rowMask, onlyYField_of_word, sel1Field_of_word, sel2Field_of_word,
      nField_of_word, BitVec.or_assoc, ← BitVec.and_or_distrib_left] <;>
    simp

/-- A word is its masked part with its free part. -/
theorem encode_rowInstr_of_rowMatches {w : CmdWord} {r : Row} (h : rowMatches w r = true) :
    encode (rowInstr (fieldsOf w) r) = w := by
  have hmatch : w &&& rowMask r = rowMatch r := eq_of_beq h
  rw [encode_rowInstr, ← hmatch, ← BitVec.and_or_distrib_left, BitVec.or_not_self, BitVec.and_allOnes]

theorem wellFormed_rowInstr (w : CmdWord) (r : Row) : (rowInstr (fieldsOf w) r).wellFormed = true := by
  cases r with
  | samenb => exact decide_eq_true (w.extractLsb' 12 4).isLt
  | _ => rfl

/-! ### Decoding what was encoded -/

/-- The word of a command is matched by the command's own row and by no other. -/
theorem filter_rowMatches_encode (i : Instr) : Laws.OneRow.Statement i := by
  cases i with
  | cmp => exact Laws.OneRow.cmp
  | pixel => exact Laws.OneRow.pixel
  | dimeq => exact Laws.OneRow.dimeq
  | ident => exact Laws.OneRow.ident
  | pos s => exact Laws.OneRow.pos s
  | rdpix s => exact Laws.OneRow.rdpix s
  | yiq => exact Laws.OneRow.yiq
  | blendw => exact Laws.OneRow.blendw
  | graybl => exact Laws.OneRow.graybl
  | cdelta y s1 s2 => exact Laws.OneRow.cdelta y s1 s2
  | samenb s n => exact Laws.OneRow.samenb s n
  | aa s1 s2 => exact Laws.OneRow.aa s1 s2

theorem rowMatches_encode_ownRow {i : Instr} (hi : i.wellFormed = true) :
    rowMatches (encode i) (Laws.OneRow.ownRow i) = true := by
  have hmem : Laws.OneRow.ownRow i ∈ allRows.filter (rowMatches (encode i)) := by
    rw [filter_rowMatches_encode i hi]
    exact List.mem_singleton_self _
  exact (List.mem_filter.1 hmem).2

/-- The fields of the word of a SAMENB are the instruction's. -/
theorem fieldsOf_encode_samenb (s : Sel) {n : Nat} (hn : n < 16) :
    (fieldsOf (encode (.samenb s n))).sel1 = s ∧ (fieldsOf (encode (.samenb s n))).n = n := by
  interval_cases n <;> cases s <;> decide

/-- The fields a row uses are read back from the word as they were written. -/
theorem rowInstr_fieldsOf_encode {i : Instr} (hi : i.wellFormed = true) :
    rowInstr (fieldsOf (encode i)) (Laws.OneRow.ownRow i) = i := by
  cases i with
  | pos s => cases s <;> rfl
  | rdpix s => cases s <;> rfl
  | cdelta y s1 s2 => cases y <;> cases s1 <;> cases s2 <;> rfl
  | samenb s n =>
    obtain ⟨hs, hn⟩ := fieldsOf_encode_samenb s (of_decide_eq_true hi)
    exact congr (congrArg Instr.samenb hs) hn
  | aa s1 s2 => cases s1 <;> cases s2 <;> rfl
  | _ => rfl

/-- Settles O1: a word that matches a row is the word of that row's command, and the word of a command matches the
command's own row. -/
theorem decodeInvertsEncode : Obligations.DecodeInvertsEncode := by
  intro w i
  rw [decodeWord_eq_ok_iff]
  constructor
  · rintro ⟨r, hr, rfl⟩
    exact ⟨wellFormed_rowInstr w r, encode_rowInstr_of_rowMatches hr⟩
  · rintro ⟨hi, rfl⟩
    exact ⟨_, rowMatches_encode_ownRow hi, rowInstr_fieldsOf_encode hi⟩

/-- Settles O4: the legal words are those the commands assemble to. -/
theorem knownWordsDecode : Obligations.KnownWordsDecode := by
  have hlegal : ∀ {w : CmdWord} {i : Instr}, i.wellFormed = true → encode i = w → decodeWord w = .ok i :=
    fun hi hw => (decodeInvertsEncode _ _).2 ⟨hi, hw⟩
  exact ⟨hlegal rfl rfl, hlegal rfl rfl, hlegal rfl rfl, hlegal rfl rfl, hlegal rfl rfl, hlegal rfl rfl, hlegal rfl rfl,
    by decide, by decide, by decide⟩

end Sys2Proof
end

section
/-! A step that meets a latched word (O5), and the completion of an illegal one (O6). -/

namespace Sys2Proof.Machine

/-! ### A step of the PDE on a latched word -/

theorem pdeStep_accepted {s : State} {w : CmdWord} (pick : Option Nat) (he : s.engine = .accepted w) :
    pdeStep pick s = runLatched w s := by
  unfold pdeStep
  rw [he]

theorem runLatched_legal {w : CmdWord} {i : Instr} (s : State) (h : decodeWord w = .ok i) :
    runLatched w s = exec i s := by
  unfold runLatched latched
  rw [h]

theorem runLatched_illegal {w : CmdWord} {e : DecodeError} (s : State) (h : decodeWord w = .error e) :
    runLatched w s = .next (raiseError .illegalCommand s) := by
  unfold runLatched latched
  rw [h]

/-! ### The steps that are the PDE's -/

/-- With no event to come the PDE moves. -/
theorem step_noEvent {s : State} (h : s.inbox = []) : step s = pdeStep none s := by
  unfold step turn
  rw [h]

/-- An `engine` event is consumed and lets the PDE move. -/
theorem step_engine {s : State} {k : Nat} {rest : List Event} (h : s.inbox = .engine k :: rest) :
    step s = pdeStep (some k) { s with inbox := rest } := by
  unfold step turn
  rw [h]

/-- Settles O5: each of the three events lets the PDE move, and its move is the latched command. -/
theorem stepRunsTheLatchedCommand : Obligations.StepRunsTheLatchedCommand := by
  intro s w i he hw
  have hmove : ∀ (pick : Option Nat) (t : State), t.engine = s.engine → pdeStep pick t = exec i t :=
    fun pick t ht => (pdeStep_accepted pick (ht.trans he)).trans (runLatched_legal t hw)
  have hbusy : s.busy = true := by rw [State.busy, he]
  refine ⟨fun h => ?_, fun rest h => ?_, fun k rest h => ?_⟩
  · rw [step_noEvent h, hmove none s rfl]
  · rw [step_wait h, if_pos hbusy, hmove none s rfl]
  · rw [step_engine h, hmove (some k) { s with inbox := rest } rfl]

/-! ### Illegal words (`30_encoding.md` R94) -/

theorem issue_of_illegal {w : CmdWord} {e : DecodeError} (s : State) (h : decodeWord w = .error e) :
    issue w s = raiseError .illegalCommand (accept w s) := by
  unfold issue latched
  rw [h]

/-- Settles O6: the written word is issued and completes at once; the latched one completes in its step. -/
theorem illegalWordCompletesWithItsError : Obligations.IllegalWordCompletesWithItsError := by
  refine ⟨fun s v e rest hb hw h => ?_, fun s w e he hw h ht => ?_⟩
  · rw [step_writeReg (n := 1) h, writeReg_cmd v (s := { s with inbox := rest }) hb,
      BitVec.setWidth_eq_extractLsb' (by decide), issue_of_illegal _ hw, raiseError_accept]
    rfl
  · refine ⟨raiseError .illegalCommand s, ?_, refusedWith_raiseError ht _, ?_, ?_⟩
    · rw [step_noEvent h, pdeStep_accepted none he, runLatched_illegal s hw]
    · rw [raiseError_eq, complete_status]
      rfl
    · rw [raiseError_eq, complete_status]
      rfl

end Sys2Proof.Machine
end

section
/-! Binary64 by bits 62:0. A pattern's magnitude rises strictly with its bits 62:0, so the two candidates of a rounding
are neighbours among all magnitudes: from that come the nearest-even property of each operation (O30), the exact results
and the bounds by powers of two. -/

namespace Sys2Proof.Machine

/-! ### A pattern as its sign and its bits 62:0 (`10_state.md` R13) -/

/-- Bits 62:0. -/
def magBits (x : F64) : Nat := x.toNat % 2 ^ 63

/-- The magnitude that bits 62:0 = b stand for, in units of 2^-1074. -/
def bitsMag (b : Nat) : Nat :=
  if b / 2 ^ 52 = 0 then b % 2 ^ 52 else (2 ^ 52 + b % 2 ^ 52) * 2 ^ (b / 2 ^ 52 - 1)

theorem fExp_eq_magBits (x : F64) : fExp x = magBits x / 2 ^ 52 := by
  unfold fExp magBits
  rw [BitVec.extractLsb'_toNat, Nat.shiftRight_eq_div_pow]
  omega

theorem fFrac_eq_magBits (x : F64) : fFrac x = magBits x % 2 ^ 52 := by
  unfold fFrac magBits
  rw [BitVec.extractLsb'_toNat, Nat.shiftRight_zero]
  omega

theorem fMag_eq_bitsMag (x : F64) : fMag x = bitsMag (magBits x) := by
  unfold fMag bitsMag
  rw [fExp_eq_magBits, fFrac_eq_magBits]

theorem getLsbD_zero_eq (x : F64) : x.getLsbD 0 = decide (magBits x % 2 = 1) := by
  rw [BitVec.getLsbD, Nat.testBit_zero, magBits]
  congr 1
  simp only [eq_iff_iff]
  omega

/-- The minus sign is the weight 2^63. -/
theorem toNat_eq_sign_add_magBits (x : F64) : x.toNat = (if fSign x then 2 ^ 63 else 0) + magBits x := by
  have hx := x.isLt
  unfold fSign magBits
  rw [BitVec.msb_eq_decide]
  simp only [decide_eq_true_eq]
  split <;> omega

theorem fPattern_toNat (neg : Bool) {b : Nat} (hb : b < 2 ^ 63) :
    (fPattern neg b).toNat = (if neg then 2 ^ 63 else 0) + b := by
  unfold fPattern
  rw [BitVec.toNat_ofNat]
  cases neg <;> simp only [Bool.false_eq_true, if_false, if_true] <;> omega

theorem magBits_fPattern (neg : Bool) {b : Nat} (hb : b < 2 ^ 63) : magBits (fPattern neg b) = b := by
  unfold magBits
  rw [fPattern_toNat neg hb]
  split <;> omega

theorem fSign_fPattern (neg : Bool) {b : Nat} (hb : b < 2 ^ 63) : fSign (fPattern neg b) = neg := by
  unfold fSign
  rw [BitVec.msb_eq_decide, fPattern_toNat neg hb]
  cases neg <;> simp only [Bool.false_eq_true, if_false, if_true, decide_eq_true_eq, decide_eq_false_iff_not] <;> omega

theorem magBits_lt (x : F64) : magBits x < 2 ^ 63 := Nat.mod_lt _ (by decide)

/-- A pattern is determined by its sign and its bits 62:0. -/
theorem eq_of_sign_of_magBits {x y : F64} (hs : fSign x = fSign y) (hm : magBits x = magBits y) : x = y := by
  apply BitVec.eq_of_toNat_eq
  rw [toNat_eq_sign_add_magBits x, toNat_eq_sign_add_magBits y, hs, hm]

/-! ### Neither a NaN nor an infinity -/

theorem isFinite_iff (x : F64) : isFinite x ↔ magBits x < infBits := by
  have hx := magBits_lt x
  unfold isFinite fIsNaN fIsInf infBits
  rw [fExp_eq_magBits, fFrac_eq_magBits]
  simp only [Bool.and_eq_false_iff, beq_eq_false_iff_ne, bne_eq_false_iff_eq]
  omega

theorem fIsInf_eq_false_iff_ne (x : F64) : fIsInf x = false ↔ magBits x ≠ infBits := by
  have hx := magBits_lt x
  unfold fIsInf infBits
  rw [fExp_eq_magBits, fFrac_eq_magBits]
  simp only [Bool.and_eq_false_iff, beq_eq_false_iff_ne]
  omega

theorem fIsZero_iff (x : F64) : fIsZero x = true ↔ magBits x = 0 := by
  unfold fIsZero
  rw [fExp_eq_magBits, fFrac_eq_magBits]
  simp only [Bool.and_eq_true, beq_iff_eq]
  omega

/-! ### The magnitude rises with bits 62:0 -/

/-- Exponent and mantissa of a magnitude: a mantissa of 53 bits, fewer only with the exponent of the subnormals, or a
mantissa just carried to 2^53. -/
theorem bitsMag_shift {k n : Nat} (hk : k = 0 ∨ 2 ^ 52 ≤ n) (hn : n ≤ 2 ^ 53) :
    bitsMag (k * 2 ^ 52 + n) = n * 2 ^ k := by
  unfold bitsMag
  rcases Nat.lt_or_ge n (2 ^ 52) with hsub | hnorm
  · obtain rfl : k = 0 := by omega
    rw [if_pos (by omega)]
    omega
  rw [if_neg (by omega)]
  rcases Nat.lt_or_eq_of_le hn with hlt | rfl
  · rw [show (k * 2 ^ 52 + n) / 2 ^ 52 - 1 = k by omega, show 2 ^ 52 + (k * 2 ^ 52 + n) % 2 ^ 52 = n by omega]
  · rw [show (k * 2 ^ 52 + 2 ^ 53) / 2 ^ 52 - 1 = k + 1 by omega,
      show 2 ^ 52 + (k * 2 ^ 52 + 2 ^ 53) % 2 ^ 52 = 2 ^ 52 by omega, pow_succ]
    omega

theorem bitsMag_strictMono : StrictMono bitsMag := by
  refine strictMono_nat_of_lt_succ fun b => ?_
  obtain ⟨k, n, rfl, hk, hn⟩ : ∃ k n, b = k * 2 ^ 52 + n ∧ (k = 0 ∨ 2 ^ 52 ≤ n) ∧ n < 2 ^ 53 :=
    ⟨b / 2 ^ 52 - 1, b - (b / 2 ^ 52 - 1) * 2 ^ 52, by omega, by omega, by omega⟩
  rw [Nat.add_assoc, bitsMag_shift hk hn.le, bitsMag_shift (hk.imp_right Nat.le_succ_of_le) hn]
  exact Nat.mul_lt_mul_of_pos_right (Nat.lt_succ_self n) (Nat.two_pow_pos k)

@[simp] theorem bitsMag_zero : bitsMag 0 = 0 := rfl

theorem fMag_eq_zero_iff (x : F64) : fMag x = 0 ↔ magBits x = 0 := by
  rw [fMag_eq_bitsMag, bitsMag_strictMono.injective.eq_iff' bitsMag_zero]

/-! ### The rounding (`40_color.md` R121 (a)) -/

/-- Bits 62:0 of a rounding before they are cut off at infinity. -/
def roundRaw (num den : Nat) : Nat :=
  roundShift num den * 2 ^ 52 + nearestEven num (den * 2 ^ roundShift num den)

theorem roundBits_eq_min (num den : Nat) : roundBits num den = min (roundRaw num den) infBits := rfl

/-- The kept bits of the quotient are 53, or fewer when none is dropped. -/
theorem keptBits_bounds (num den : Nat) :
    (roundShift num den = 0 ∨ 2 ^ 52 ≤ num / (den * 2 ^ roundShift num den)) ∧
    num / (den * 2 ^ roundShift num den) < 2 ^ 53 := by
  rw [← Nat.div_div_eq_div_mul]
  unfold roundShift
  generalize num / den = t
  have hlt : t < 2 ^ (t.log2 + 1) := Nat.lt_log2_self
  rcases Nat.lt_or_ge 52 t.log2 with hbig | hsmall
  · obtain ⟨k, hk⟩ := Nat.exists_eq_add_of_le hbig.le
    have hle : 2 ^ t.log2 ≤ t := Nat.log2_self_le (by rintro rfl; simp at hbig)
    rw [hk] at hle hlt
    rw [hk, Nat.add_sub_cancel_left]
    refine ⟨.inr ((Nat.le_div_iff_mul_le (Nat.two_pow_pos k)).2 ?_), (Nat.div_lt_iff_lt_mul (Nat.two_pow_pos k)).2 ?_⟩
    · rwa [← pow_add]
    · rwa [← pow_add, show 53 + k = 52 + k + 1 by omega]
  · rw [Nat.sub_eq_zero_of_le hsmall, Nat.pow_zero, Nat.div_one]
    exact ⟨.inl rfl, hlt.trans_le (Nat.pow_le_pow_right (by decide) (by omega))⟩

/-- The rounding goes down when the remainder is at most half, up when it is at least half, and from the middle to
the even side. -/
theorem nearestEven_cases (num d : Nat) :
    (nearestEven num d = num / d ∧ 2 * (num % d) ≤ d ∧ (2 * (num % d) = d → num / d % 2 = 0)) ∨
    (nearestEven num d = num / d + 1 ∧ d ≤ 2 * (num % d) ∧ (2 * (num % d) = d → (num / d + 1) % 2 = 0)) := by
  unfold nearestEven
  split
  · exact .inr ⟨rfl, by omega, by omega⟩
  · exact .inl ⟨rfl, by omega, by omega⟩

/-- No magnitude is nearer to num/den than the rounded one, and if another is as near the rounded one is even: the
quotient lies between two magnitudes that are neighbours, and the rounding takes the nearer one. -/
theorem roundRaw_nearest (num : Nat) {den : Nat} (hden : 0 < den) (b : Nat) :
    natDist num (bitsMag (roundRaw num den) * den) ≤ natDist num (bitsMag b * den) ∧
    (natDist num (bitsMag (roundRaw num den) * den) = natDist num (bitsMag b * den) → b ≠ roundRaw num den →
      roundRaw num den % 2 = 0) := by
  obtain ⟨hk, hq⟩ := keptBits_bounds num den
  have hchoice := nearestEven_cases num (den * 2 ^ roundShift num den)
  have hsplit := Nat.div_add_mod num (den * 2 ^ roundShift num den)
  have hrest := Nat.mod_lt num (Nat.mul_pos hden (Nat.two_pow_pos (roundShift num den)))
  unfold roundRaw
  generalize roundShift num den = k at *
  generalize num / (den * 2 ^ k) = q at *
  have hlow : bitsMag (k * 2 ^ 52 + q) * den = den * 2 ^ k * q := by rw [bitsMag_shift hk hq.le]; ring
  have hhigh : bitsMag (k * 2 ^ 52 + (q + 1)) * den = den * 2 ^ k * q + den * 2 ^ k := by
    rw [bitsMag_shift (n := q + 1) (hk.imp_right Nat.le_succ_of_le) hq]; ring
  have hscale : StrictMono fun b => bitsMag b * den := bitsMag_strictMono.mul_const hden
  have hbelow : b < k * 2 ^ 52 + q → bitsMag b * den < bitsMag (k * 2 ^ 52 + q) * den := fun h => hscale h
  have habove : k * 2 ^ 52 + (q + 1) < b → bitsMag (k * 2 ^ 52 + (q + 1)) * den < bitsMag b * den := fun h => hscale h
  have hat : b = k * 2 ^ 52 + q ∨ b = k * 2 ^ 52 + (q + 1) ∨ b < k * 2 ^ 52 + q ∨ k * 2 ^ 52 + (q + 1) < b := by omega
  unfold natDist
  rcases hchoice with ⟨hdown, hhalf, heven⟩ | ⟨hup, hhalf, heven⟩
  · rw [hdown, hlow]
    rcases hat with rfl | rfl | h | h <;> omega
  · rw [hup, hhigh]
    rcases hat with rfl | rfl | h | h <;> omega

theorem roundBits_le_infBits (num den : Nat) : roundBits num den ≤ infBits := Nat.min_le_right _ _

theorem roundBits_lt (num den : Nat) : roundBits num den < 2 ^ 63 :=
  (roundBits_le_infBits num den).trans_lt (by decide)

/-- The rounding does not pass a magnitude that bounds its exact value. -/
theorem roundBits_le {num den b : Nat} (hden : 0 < den) (h : num ≤ bitsMag b * den) : roundBits num den ≤ b := by
  obtain ⟨hnear, _⟩ := roundRaw_nearest num hden b
  unfold natDist at hnear
  have hmag : bitsMag (roundRaw num den) ≤ bitsMag b := Nat.le_of_mul_le_mul_right (by omega) hden
  exact (Nat.min_le_left _ _).trans (bitsMag_strictMono.le_iff_le.1 hmag)

/-- A magnitude below infinity is rounded to itself. -/
theorem roundBits_exact {num den b : Nat} (hden : 0 < den) (h : num = bitsMag b * den) (hb : b ≤ infBits) :
    roundBits num den = b := by
  obtain ⟨hnear, _⟩ := roundRaw_nearest num hden b
  unfold natDist at hnear
  have hmag : bitsMag (roundRaw num den) = bitsMag b := Nat.eq_of_mul_eq_mul_right hden (by omega)
  rw [roundBits_eq_min, bitsMag_strictMono.injective hmag, Nat.min_eq_left hb]

@[simp] theorem magBits_fRound (neg : Bool) (num den : Nat) : magBits (fRound neg num den) = roundBits num den :=
  magBits_fPattern neg (roundBits_lt num den)

@[simp] theorem fSign_fRound (neg : Bool) (num den : Nat) : fSign (fRound neg num den) = neg :=
  fSign_fPattern neg (roundBits_lt num den)

/-- A result that did not overflow was not cut off. -/
theorem magBits_fRound_of_finite {neg : Bool} {num den : Nat} (h : fIsInf (fRound neg num den) = false) :
    magBits (fRound neg num den) = roundRaw num den := by
  have hne := (fIsInf_eq_false_iff_ne _).1 h
  rw [magBits_fRound, roundBits_eq_min] at *
  omega

theorem fRound_nearest {neg : Bool} {num den : Nat} (hden : 0 < den) (h : fIsInf (fRound neg num den) = false) (x : F64) :
    natDist num (fMag (fRound neg num den) * den) ≤ natDist num (fMag x * den) ∧
    (natDist num (fMag (fRound neg num den) * den) = natDist num (fMag x * den) →
      magBits x ≠ magBits (fRound neg num den) → (fRound neg num den).getLsbD 0 = false) := by
  have hnear := roundRaw_nearest num hden (magBits x)
  rw [fMag_eq_bitsMag, fMag_eq_bitsMag x, getLsbD_zero_eq, magBits_fRound_of_finite h, decide_eq_false_iff_not]
  exact ⟨hnear.1, fun heq hne => by rw [hnear.2 heq hne]; decide⟩

theorem fRound_neg (num den : Nat) : fRound true num den = 0x8000000000000000#64 ||| fRound false num den := by
  have hlt := roundBits_lt num den
  apply BitVec.eq_of_toNat_eq
  unfold fRound
  rw [BitVec.toNat_or, fPattern_toNat true hlt, fPattern_toNat false hlt]
  simpa using Nat.two_pow_add_eq_or_of_lt hlt 1

/-! ### The signed value -/

/-- An integer by sign and magnitude. -/
def signed (neg : Bool) (m : Nat) : Int := if neg then -(m : Int) else m

theorem fVal_eq_signed (x : F64) : fVal x = signed (fSign x) (fMag x) := rfl

theorem signed_mul (s t : Bool) (m n : Nat) : signed s m * signed t n = signed (s != t) (m * n) := by
  cases s <;> cases t <;> simp [signed]

theorem signed_mul_natCast (s : Bool) (m n : Nat) : signed s m * (n : Int) = signed s (m * n) := by
  rw [show (n : Int) = signed false n from rfl, signed_mul, Bool.bne_false]

theorem signed_natAbs (z : Int) : signed (decide (z < 0)) z.natAbs = z := by
  unfold signed
  simp only [decide_eq_true_eq]
  split <;> omega

theorem natAbs_signed_sub_same (s : Bool) (m n : Nat) : (signed s m - signed s n).natAbs = natDist m n := by
  unfold signed natDist
  split <;> omega

theorem natAbs_signed_sub_opposite {s t : Bool} (h : s ≠ t) (m n : Nat) :
    (signed s m - signed t n).natAbs = natDist m 0 + n := by
  unfold natDist
  cases s <;> cases t <;> simp [signed] at * <;> omega

theorem natAbs_fVal (x : F64) : (fVal x).natAbs = fMag x := by
  unfold fVal
  split <;> omega

theorem fVal_eq_zero_iff (x : F64) : fVal x = 0 ↔ magBits x = 0 := by
  rw [← Int.natAbs_eq_zero, natAbs_fVal, fMag_eq_zero_iff]

theorem isFinite_cZero : isFinite cZero := ⟨rfl, rfl⟩

theorem fMag_cZero : fMag cZero = 0 := rfl

/-- A rounded magnitude with its sign is the rounded value: a value on the other side of 0 is no nearer than 0 is. -/
theorem isRounded_fRound {neg : Bool} {num den : Nat} (hden : 0 < den) (h : fIsInf (fRound neg num den) = false) :
    isRounded (fRound neg num den) (signed neg num) den := by
  intro x _
  have hr : fVal (fRound neg num den) = signed neg (fMag (fRound neg num den)) := by rw [fVal_eq_signed, fSign_fRound]
  have hdist : (signed neg num - fVal (fRound neg num den) * den).natAbs
      = natDist num (fMag (fRound neg num den) * den) := by rw [hr, signed_mul_natCast, natAbs_signed_sub_same]
  rw [hdist, fVal_eq_signed x, signed_mul_natCast]
  by_cases hs : neg = fSign x
  · obtain ⟨hle, heven⟩ := fRound_nearest hden h x
    rw [← hs, natAbs_signed_sub_same]
    refine ⟨hle, fun heq hne => heven heq fun hbits => hne ?_⟩
    rw [hr, fMag_eq_bitsMag, hbits, ← fMag_eq_bitsMag]
  · obtain ⟨hle, heven⟩ := fRound_nearest hden h cZero
    rw [fMag_cZero, Nat.zero_mul] at hle heven
    rw [natAbs_signed_sub_opposite hs]
    refine ⟨by omega, fun heq hne => heven (by omega) fun hbits => hne ?_⟩
    have hx : fMag x = 0 := (Nat.mul_eq_zero.1 (by omega : fMag x * den = 0)).resolve_right (by omega)
    rw [← fVal_eq_signed, (fVal_eq_zero_iff _).2 ((fMag_eq_zero_iff x).1 hx), (fVal_eq_zero_iff _).2 hbits.symm]

/-! ### The operations on finite operands (`40_color.md` R121) -/

theorem fadd_of_finite {x y : F64} (hx : isFinite x) (hy : isFinite y) : fadd x y = faddFinite x y := by
  obtain ⟨hxn, hxi⟩ := hx
  obtain ⟨hyn, hyi⟩ := hy
  simp [fadd, hxn, hxi, hyn, hyi]

theorem fmul_of_finite {x y : F64} (hx : isFinite x) (hy : isFinite y) :
    fmul x y = fRound (fSign x != fSign y) (fMag x * fMag y) fOne := by
  obtain ⟨hxn, hxi⟩ := hx
  obtain ⟨hyn, hyi⟩ := hy
  simp [fmul, fmulFinite, hxn, hxi, hyn, hyi]

theorem fdiv_of_finite {x y : F64} (hx : isFinite x) (hy : isFinite y) (h0 : fIsZero y = false) :
    fdiv x y = fRound (fSign x != fSign y) (fMag x * fOne) (fMag y) := by
  obtain ⟨hxn, hxi⟩ := hx
  obtain ⟨hyn, hyi⟩ := hy
  simp [fdiv, fdivFinite, hxn, hxi, hyn, hyi, h0]

theorem magBits_fZero (neg : Bool) : magBits (fZero neg) = 0 := magBits_fPattern neg (by decide)

/-- An exact sum of 0. -/
theorem fadd_of_sum_zero {x y : F64} (hx : isFinite x) (hy : isFinite y) (h : fVal x + fVal y = 0) :
    fadd x y = fZero (fSign x && fSign y) := by
  rw [fadd_of_finite hx hy, faddFinite, if_pos h]

theorem fadd_of_sum_ne_zero {x y : F64} (hx : isFinite x) (hy : isFinite y) (h : fVal x + fVal y ≠ 0) :
    fadd x y = fRound (decide (fVal x + fVal y < 0)) (fVal x + fVal y).natAbs 1 := by
  rw [fadd_of_finite hx hy, faddFinite, if_neg h]

/-! ### The operations on the sign bit -/

theorem magBits_eq_setWidth (x : F64) : magBits x = (x.setWidth 63).toNat := (BitVec.toNat_setWidth 63 x).symm

@[simp] theorem magBits_fneg (x : F64) : magBits (fneg x) = magBits x := by
  rw [magBits_eq_setWidth, fneg, BitVec.setWidth_xor, show (0x8000000000000000#64).setWidth 63 = 0#63 from rfl,
    BitVec.xor_zero, magBits_eq_setWidth]

@[simp] theorem fSign_fneg (x : F64) : fSign (fneg x) = !fSign x := by
  rw [fSign, fneg, BitVec.msb_xor, show (0x8000000000000000#64).msb = true from rfl, Bool.xor_true, fSign]

/-- Setting the sign bit leaves the magnitude. -/
@[simp] theorem magBits_or_sign (x : F64) : magBits (0x8000000000000000#64 ||| x) = magBits x := by
  rw [magBits_eq_setWidth, BitVec.setWidth_or, show (0x8000000000000000#64).setWidth 63 = 0#63 from rfl,
    BitVec.zero_or, magBits_eq_setWidth]

theorem isFinite_fneg {x : F64} (hx : isFinite x) : isFinite (fneg x) := by
  rw [isFinite_iff, magBits_fneg]
  exact (isFinite_iff x).1 hx

@[simp] theorem fMag_fneg (x : F64) : fMag (fneg x) = fMag x := by
  rw [fMag_eq_bitsMag, magBits_fneg, ← fMag_eq_bitsMag]

@[simp] theorem fVal_fneg (x : F64) : fVal (fneg x) = -fVal x := by
  rw [fVal_eq_signed, fVal_eq_signed x, fSign_fneg, fMag_fneg]
  cases fSign x <;> simp [signed]

/-! ### Each operation is its exact result, rounded (`40_color.md` R121 (a)) -/

theorem fOne_pos : 0 < fOne := by
  unfold fOne
  positivity

/-- Nothing of another value is as near to 0 as a zero is. -/
theorem isRounded_fZero (neg : Bool) : isRounded (fZero neg) 0 1 := by
  intro x _
  have hzero : fVal (fZero neg) = 0 := (fVal_eq_zero_iff _).2 (magBits_fZero neg)
  rw [hzero]
  exact ⟨by omega, fun heq hne => absurd (by omega) hne⟩

theorem isRounded_fadd {x y : F64} (hx : isFinite x) (hy : isFinite y) (h : fIsInf (fadd x y) = false) :
    isRounded (fadd x y) (fVal x + fVal y) 1 := by
  by_cases hsum : fVal x + fVal y = 0
  · rw [fadd_of_sum_zero hx hy hsum, hsum]
    exact isRounded_fZero _
  · rw [fadd_of_sum_ne_zero hx hy hsum] at h ⊢
    have hrounded := isRounded_fRound Nat.one_pos h
    rwa [signed_natAbs] at hrounded

theorem isRounded_fmul {x y : F64} (hx : isFinite x) (hy : isFinite y) (h : fIsInf (fmul x y) = false) :
    isRounded (fmul x y) (fVal x * fVal y) fOne := by
  rw [fmul_of_finite hx hy] at h ⊢
  rw [fVal_eq_signed, fVal_eq_signed y, signed_mul]
  exact isRounded_fRound fOne_pos h

/-- The sign of the exact quotient is that of the operands' signs together. -/
theorem fVal_mul_fOne_mul_sign {x y : F64} (hy : fMag y ≠ 0) :
    fVal x * (fOne : Int) * (fVal y).sign = signed (fSign x != fSign y) (fMag x * fOne) := by
  have hsign : (fVal y).sign = signed (fSign y) 1 := by
    rw [fVal_eq_signed]
    cases fSign y <;> simp [signed, Nat.pos_of_ne_zero hy]
  rw [hsign, fVal_eq_signed, signed_mul_natCast, signed_mul, Nat.mul_one]

theorem isRounded_fdiv {x y : F64} (hx : isFinite x) (hy : isFinite y) (h0 : fIsZero y = false)
    (h : fIsInf (fdiv x y) = false) :
    isRounded (fdiv x y) (fVal x * (fOne : Int) * (fVal y).sign) (fVal y).natAbs := by
  have hmag : fMag y ≠ 0 := by
    rw [Ne, fMag_eq_zero_iff, ← fIsZero_iff, h0]
    exact Bool.false_ne_true
  rw [fdiv_of_finite hx hy h0] at h ⊢
  rw [fVal_mul_fOne_mul_sign hmag, natAbs_fVal]
  exact isRounded_fRound (Nat.pos_of_ne_zero hmag) h

/-- Settles O30: the rounding of a magnitude, and each operation as the rounding of its exact result. -/
theorem roundingIsToNearestEven : Obligations.RoundingIsToNearestEven := by
  refine ⟨fun num den x hden _ _ hsign hfin => ?_, fRound_neg, fun x y hx hy =>
    ⟨isRounded_fadd hx hy, fun h => ?_, isRounded_fmul hx hy, isRounded_fdiv hx hy⟩⟩
  · obtain ⟨hle, heven⟩ := fRound_nearest hden hfin x
    refine ⟨hle, fun heq hne => heven heq fun hbits => hne ?_⟩
    exact eq_of_sign_of_magBits (hsign.trans (fSign_fRound false num den).symm) hbits
  · have hsub := isRounded_fadd hx (isFinite_fneg hy) h
    rwa [fVal_fneg, ← sub_eq_add_neg] at hsub

end Sys2Proof.Machine
end

section
/-! Results of the float operations where the rounding has nothing to do, among them the integers 0..255, and bounds by
powers of two where it has: the two facts the colour units need. -/

namespace Sys2Proof.Machine

/-! ### Exact results -/

/-- A finite pattern's own value is rounded to it. -/
theorem fRound_exact {neg : Bool} {num den : Nat} {z : F64} (hz : isFinite z) (hs : fSign z = neg) (hden : 0 < den)
    (h : num = fMag z * den) : fRound neg num den = z := by
  rw [fMag_eq_bitsMag] at h
  refine eq_of_sign_of_magBits ((fSign_fRound ..).trans hs.symm) ?_
  rw [magBits_fRound, roundBits_exact hden h ((isFinite_iff z).1 hz).le]

/-- A sum that is an f64 other than 0 is that f64. -/
theorem fadd_exact {x y z : F64} (hx : isFinite x) (hy : isFinite y) (hz : isFinite z) (h : fVal x + fVal y = fVal z)
    (h0 : fMag z ≠ 0) : fadd x y = z := by
  have hne : fVal z ≠ 0 := fun hval => h0 ((fMag_eq_zero_iff z).2 ((fVal_eq_zero_iff z).1 hval))
  have hsign : decide (fVal z < 0) = fSign z := by
    rw [fVal_eq_signed]
    cases fSign z <;> simp [signed, Nat.pos_of_ne_zero h0]
  rw [fadd_of_sum_ne_zero hx hy (h ▸ hne), h, hsign, natAbs_fVal]
  exact fRound_exact hz rfl Nat.one_pos (Nat.mul_one _).symm

/-- A number plus its negative is +0.0. -/
theorem fadd_fneg_self {x : F64} (hx : isFinite x) : fadd x (fneg x) = cZero := by
  rw [fadd_of_sum_zero hx (isFinite_fneg hx) (by rw [fVal_fneg, Int.add_right_neg]), fSign_fneg, Bool.and_not_self]
  rfl

/-- A zero of either sign adds nothing to a number that is not 0. -/
theorem fadd_zero_right {x y : F64} (hx : isFinite x) (h0 : fMag x ≠ 0) (hy : magBits y = 0) : fadd x y = x := by
  refine fadd_exact hx ((isFinite_iff y).2 (hy.trans_lt (by decide))) hx ?_ h0
  rw [(fVal_eq_zero_iff y).2 hy, Int.add_zero]

theorem magBits_fmul_cZero {x : F64} (hx : isFinite x) : magBits (fmul x cZero) = 0 := by
  rw [fmul_of_finite hx isFinite_cZero, magBits_fRound]
  exact roundBits_exact fOne_pos (by rw [fMag_cZero, bitsMag_zero, Nat.mul_zero, Nat.zero_mul]) (Nat.zero_le _)

/-! ### The integers 0..255 as f64 -/

theorem isFinite_c255 : isFinite c255 := ⟨rfl, rfl⟩

theorem isFinite_cOne : isFinite cOne := ⟨rfl, rfl⟩

theorem fMag_cOne : fMag cOne = fOne := by
  rw [fMag_eq_bitsMag, show magBits cOne = 1022 * 2 ^ 52 + 2 ^ 52 from rfl, bitsMag_shift (.inr le_rfl) (by decide),
    fOne, ← pow_add]

theorem fMag_c255 : fMag c255 = 255 * fOne := by
  rw [fMag_eq_bitsMag, show magBits c255 = 1029 * 2 ^ 52 + 255 * 2 ^ 45 from rfl,
    bitsMag_shift (.inr (by decide)) (by decide), fOne, Nat.mul_assoc, ← pow_add]

theorem fmul_cOne {x : F64} (hx : isFinite x) : fmul x cOne = x := by
  rw [fmul_of_finite hx isFinite_cOne, fMag_cOne]
  exact fRound_exact hx (Bool.bne_false _).symm fOne_pos rfl

@[simp] theorem fSign_f64OfNat (n : Nat) : fSign (f64OfNat n) = false := fSign_fRound ..

/-- An integer of at most 53 bits has an f64 of its own. -/
theorem exists_bitsMag_eq_mul_fOne {n : Nat} (hn : n < 2 ^ 53) : ∃ b < infBits, bitsMag b = n * fOne := by
  rcases Nat.eq_zero_or_pos n with rfl | hpos
  · exact ⟨0, by decide, (Nat.zero_mul _).symm⟩
  have hlog : n.log2 ≤ 52 := Nat.le_of_lt_succ ((Nat.log2_lt hpos.ne').2 hn)
  obtain ⟨j, hj⟩ := Nat.exists_eq_add_of_le hlog
  have hlow : 2 ^ 52 ≤ n * 2 ^ j := by
    rw [hj, pow_add]
    exact Nat.mul_le_mul_right _ (Nat.log2_self_le hpos.ne')
  have hhigh : n * 2 ^ j < 2 ^ 53 := by
    rw [show 53 = n.log2 + 1 + j by omega, pow_add]
    exact Nat.mul_lt_mul_of_pos_right Nat.lt_log2_self (Nat.two_pow_pos j)
  refine ⟨(1022 + n.log2) * 2 ^ 52 + n * 2 ^ j, ?_, ?_⟩
  · unfold infBits
    omega
  · rw [bitsMag_shift (.inr hlow) hhigh.le, Nat.mul_assoc, ← pow_add, fOne]
    congr 2
    omega

theorem f64OfNat_exact {n : Nat} (hn : n < 2 ^ 53) : isFinite (f64OfNat n) ∧ fMag (f64OfNat n) = n * fOne := by
  obtain ⟨b, hb, hmag⟩ := exists_bitsMag_eq_mul_fOne hn
  have hbits : magBits (f64OfNat n) = b := by
    rw [f64OfNat, magBits_fRound]
    exact roundBits_exact Nat.one_pos (by rw [hmag, Nat.mul_one]) hb.le
  rw [isFinite_iff, fMag_eq_bitsMag, hbits]
  exact ⟨hb, hmag⟩

theorem fVal_f64OfNat {n : Nat} (hn : n < 2 ^ 53) : fVal (f64OfNat n) = n * (fOne : Int) := by
  obtain ⟨_, hmag⟩ := f64OfNat_exact hn
  rw [fVal_eq_signed, fSign_f64OfNat, hmag]
  exact Int.natCast_mul n fOne

theorem f64OfNat_255 : f64OfNat 255 = c255 :=
  fRound_exact isFinite_c255 rfl Nat.one_pos (by rw [fMag_c255, Nat.mul_one])

theorem f64OfNat_zero : f64OfNat 0 = cZero :=
  fRound_exact isFinite_cZero rfl Nat.one_pos (by rw [fMag_cZero, Nat.zero_mul, Nat.zero_mul])

theorem fMag_c255_ne_zero : fMag c255 ≠ 0 := by
  rw [Ne, fMag_eq_zero_iff]
  decide

/-- Component less white, without rounding. -/
theorem fsub_f64OfNat_c255 {n : Nat} (hn : n < 255) : fsub (f64OfNat n) c255 = fneg (f64OfNat (255 - n)) := by
  obtain ⟨hfin, _⟩ := f64OfNat_exact (n := n) (by omega)
  obtain ⟨hdiff, hmag⟩ := f64OfNat_exact (n := 255 - n) (by omega)
  refine fadd_exact hfin (isFinite_fneg isFinite_c255) (isFinite_fneg hdiff) ?_ ?_
  · rw [← f64OfNat_255, fVal_fneg, fVal_fneg, fVal_f64OfNat (by omega), fVal_f64OfNat (by omega),
      fVal_f64OfNat (by omega), Nat.cast_sub hn.le]
    ring
  · rw [fMag_fneg, hmag]
    exact (Nat.mul_pos (by omega) fOne_pos).ne'

/-- White less the distance to white. -/
theorem fadd_c255_fneg {n : Nat} (hn : n < 255) : fadd c255 (fneg (f64OfNat (255 - n))) = f64OfNat n := by
  rcases Nat.eq_zero_or_pos n with rfl | hpos
  · rw [f64OfNat_zero, f64OfNat_255, fadd_fneg_self isFinite_c255]
  obtain ⟨hfin, hmag⟩ := f64OfNat_exact (n := n) (by omega)
  obtain ⟨hdiff, _⟩ := f64OfNat_exact (n := 255 - n) (by omega)
  refine fadd_exact isFinite_c255 (isFinite_fneg hdiff) hfin ?_ ?_
  · rw [← f64OfNat_255, fVal_fneg, fVal_f64OfNat (by omega), fVal_f64OfNat (by omega), fVal_f64OfNat (by omega),
      Nat.cast_sub hn.le]
    ring
  · rw [hmag]
    exact (Nat.mul_pos hpos fOne_pos).ne'

/-! ### Bounds by powers of two -/

/-- The magnitude is at most 2^e, said of bits 62:0. -/
def withinPow (e : Nat) (x : F64) : Prop := magBits x ≤ (1023 + e) * 2 ^ 52

theorem bitsMag_pow (e : Nat) : bitsMag ((1023 + e) * 2 ^ 52) = 2 ^ e * fOne := by
  rw [show (1023 + e) * 2 ^ 52 = (1022 + e) * 2 ^ 52 + 2 ^ 52 by omega, bitsMag_shift (.inr le_rfl) (by decide), fOne,
    ← pow_add, ← pow_add]
  congr 1
  omega

theorem withinPow_iff (e : Nat) (x : F64) : withinPow e x ↔ fMag x ≤ 2 ^ e * fOne := by
  rw [withinPow, fMag_eq_bitsMag, ← bitsMag_pow, bitsMag_strictMono.le_iff_le]

theorem withinPow.mono {d e : Nat} {x : F64} (h : withinPow d x) (hde : d ≤ e) : withinPow e x :=
  h.trans (Nat.mul_le_mul_right _ (by omega))

theorem withinPow.isFinite {e : Nat} {x : F64} (h : withinPow e x) (he : e ≤ 1023) : isFinite x := by
  unfold withinPow at h
  rw [isFinite_iff, infBits]
  omega

theorem withinPow_fRound {e num den : Nat} {neg : Bool} (hden : 0 < den) (h : num ≤ 2 ^ e * fOne * den) :
    withinPow e (fRound neg num den) := by
  rw [withinPow, magBits_fRound]
  exact roundBits_le hden (by rwa [bitsMag_pow])

theorem withinPow_f64OfByte (c : Byte) : withinPow 8 (f64OfByte c) :=
  withinPow_fRound Nat.one_pos (by rw [Nat.mul_one]; exact Nat.mul_le_mul_right _ c.isLt.le)

theorem withinPow.fneg {e : Nat} {x : F64} (h : withinPow e x) : withinPow e (fneg x) := by
  rwa [withinPow, magBits_fneg]

theorem withinPow.fadd {e : Nat} {x y : F64} (hx : withinPow e x) (hy : withinPow e y) (he : e ≤ 1023) :
    withinPow (e + 1) (fadd x y) := by
  have hxfin := hx.isFinite he
  have hyfin := hy.isFinite he
  rw [withinPow_iff, ← natAbs_fVal] at hx hy
  by_cases hsum : fVal x + fVal y = 0
  · rw [fadd_of_sum_zero hxfin hyfin hsum, withinPow, magBits_fZero]
    exact Nat.zero_le _
  · rw [fadd_of_sum_ne_zero hxfin hyfin hsum]
    refine withinPow_fRound Nat.one_pos ?_
    rw [Nat.mul_one, pow_succ, Nat.mul_right_comm]
    omega

theorem withinPow.fsub {e : Nat} {x y : F64} (hx : withinPow e x) (hy : withinPow e y) (he : e ≤ 1023) :
    withinPow (e + 1) (fsub x y) := hx.fadd hy.fneg he

theorem withinPow.fmul {d e : Nat} {x y : F64} (hx : withinPow d x) (hy : withinPow e y) (hd : d ≤ 1023)
    (he : e ≤ 1023) : withinPow (d + e) (fmul x y) := by
  rw [fmul_of_finite (hx.isFinite hd) (hy.isFinite he)]
  rw [withinPow_iff] at hx hy
  refine withinPow_fRound fOne_pos ?_
  calc fMag x * fMag y ≤ 2 ^ d * fOne * (2 ^ e * fOne) := Nat.mul_le_mul hx hy
    _ = 2 ^ (d + e) * fOne * fOne := by rw [pow_add]; ring

/-- A division by 255 does not enlarge. -/
theorem withinPow.fdiv_c255 {e : Nat} {x : F64} (hx : withinPow e x) (he : e ≤ 1023) :
    withinPow e (fdiv x c255) := by
  rw [fdiv_of_finite (hx.isFinite he) isFinite_c255 rfl]
  rw [withinPow_iff] at hx
  refine withinPow_fRound (Nat.pos_of_ne_zero fMag_c255_ne_zero) (Nat.mul_le_mul hx ?_)
  rw [fMag_c255]
  exact Nat.le_mul_of_pos_left _ (by decide)

/-- A coefficient whose exponent field is below that of 1.0 does not enlarge (the literals of `40_color.md` R122). -/
theorem withinPow.coefficient {e : Nat} {w x : F64} (hx : withinPow e x) (hw : fExp w < 1023) (he : e ≤ 1023) :
    withinPow e (Machine.fmul w x) := by
  have hone : withinPow 0 w := by
    rw [fExp_eq_magBits] at hw
    unfold withinPow
    omega
  have hprod := hone.fmul hx (by decide) he
  rwa [Nat.zero_add] at hprod

end Sys2Proof.Machine
end

section
/-! The colour units: the bounds of the converter and of the delta (O34), the blend and the gray blend at their ends
(O27, O29), and the commands YIQ, BLENDW and GRAYBL (O25, O26, O28). -/

namespace Sys2Proof.Machine

/-! ### The converter's components are bounded (`40_color.md` R123 to R127) -/

/-- Every component is at most 2^e in magnitude. -/
def withinRgb (e : Nat) (p : Rgb) : Prop := withinPow e p.r ∧ withinPow e p.g ∧ withinPow e p.b

theorem withinRgb_opaqueRgb (c : Color) : withinRgb 8 (opaqueRgb c) :=
  ⟨withinPow_f64OfByte _, withinPow_f64OfByte _, withinPow_f64OfByte _⟩

theorem withinPow_c255 : withinPow 8 c255 := by
  rw [← f64OfNat_255]
  exact withinPow_f64OfByte 255#8

theorem withinPow_towardWhite {c a : F64} (hc : withinPow 8 c) (ha : withinPow 8 a) :
    withinPow 18 (towardWhite c a) := by
  have hdist : withinPow 9 (fsub c c255) := hc.fsub withinPow_c255 (by decide)
  have hprod : withinPow (9 + 8) (fmul (fsub c c255) a) := hdist.fmul ha (by decide) (by decide)
  exact (withinPow_c255.mono (by decide)).fadd hprod (by decide)

theorem withinRgb_blend (c : Color) : withinRgb 18 (blend c) := by
  have ha : withinPow 8 (fdiv (f64OfByte c.a) c255) := (withinPow_f64OfByte c.a).fdiv_c255 (by decide)
  exact ⟨withinPow_towardWhite (withinPow_f64OfByte _) ha, withinPow_towardWhite (withinPow_f64OfByte _) ha,
    withinPow_towardWhite (withinPow_f64OfByte _) ha⟩

theorem withinRgb_overWhite (c : Color) : withinRgb 18 (overWhite c) := by
  unfold overWhite
  split
  · exact withinRgb_blend c
  · obtain ⟨hr, hg, hb⟩ := withinRgb_opaqueRgb c
    exact ⟨hr.mono (by decide), hg.mono (by decide), hb.mono (by decide)⟩

section
variable {e : Nat} {p : Rgb}

/-- The three products of a row of the converter. -/
theorem withinRgb.products {u v w : F64} (hp : withinRgb e p) (hu : fExp u < 1023) (hv : fExp v < 1023)
    (hw : fExp w < 1023) (he : e ≤ 1021) :
    withinPow e (fmul u p.r) ∧ withinPow e (fmul v p.g) ∧ withinPow (e + 1) (fmul w p.b) := by
  obtain ⟨hr, hg, hb⟩ := hp
  exact ⟨hr.coefficient hu (by omega), hg.coefficient hv (by omega), (hb.coefficient hw (by omega)).mono (by omega)⟩

theorem withinPow_yOf (hp : withinRgb e p) (he : e ≤ 1021) : withinPow (e + 2) (yOf p) := by
  obtain ⟨hr, hg, hb⟩ := hp.products (u := cyR) (v := cyG) (w := cyB) (by decide) (by decide) (by decide) he
  exact (hr.fadd hg (by omega)).fadd hb (by omega)

theorem withinPow_iOf (hp : withinRgb e p) (he : e ≤ 1021) : withinPow (e + 2) (iOf p) := by
  obtain ⟨hr, hg, hb⟩ := hp.products (u := ciR) (v := ciG) (w := ciB) (by decide) (by decide) (by decide) he
  exact (hr.fsub hg (by omega)).fsub hb (by omega)

theorem withinPow_qOf (hp : withinRgb e p) (he : e ≤ 1021) : withinPow (e + 2) (qOf p) := by
  obtain ⟨hr, hg, hb⟩ := hp.products (u := cqR) (v := cqG) (w := cqB) (by decide) (by decide) (by decide) he
  exact (hr.fsub hg (by omega)).fadd hb (by omega)

end

/-! ### The delta is finite (`40_color.md` R131) -/

theorem withinPow_brightnessDelta {p q : Rgb} (hp : withinRgb 18 p) (hq : withinRgb 18 q) :
    withinPow 21 (brightnessDelta p q) :=
  (withinPow_yOf hp (by decide)).fsub (withinPow_yOf hq (by decide)) (by decide)

theorem withinPow_weighted {w d : F64} (hw : fExp w < 1023) (hd : withinPow 21 d) : withinPow 42 (weighted w d) :=
  (hd.fmul hd (by decide) (by decide)).coefficient hw (by decide)

theorem withinPow_squaredDelta {p q : Rgb} (hp : withinRgb 18 p) (hq : withinRgb 18 q) :
    withinPow 44 (squaredDelta p q) := by
  have hdy := withinPow_weighted (w := wY) (by decide) (withinPow_brightnessDelta hp hq)
  have hdi := withinPow_weighted (w := wI) (by decide)
    ((withinPow_iOf hp (by decide)).fsub (withinPow_iOf hq (by decide)) (by decide))
  have hdq := withinPow_weighted (w := wQ) (by decide)
    ((withinPow_qOf hp (by decide)).fsub (withinPow_qOf hq (by decide)) (by decide))
  exact (hdy.fadd hdi (by decide)).fadd (hdq.mono (by decide)) (by decide)

theorem withinPow_signedDelta {p q : Rgb} (hp : withinRgb 18 p) (hq : withinRgb 18 q) :
    withinPow 44 (signedDelta p q) := by
  unfold signedDelta
  split
  · rw [withinPow, magBits_or_sign]
    exact withinPow_squaredDelta hp hq
  · exact withinPow_squaredDelta hp hq

/-- The magnitude of a delta is at most 2^44, in both modes. -/
theorem withinPow_colorDelta (ca cb : Color) (y : Bool) : withinPow 44 (colorDelta ca cb y) := by
  have ha := withinRgb_overWhite ca
  have hb := withinRgb_overWhite cb
  unfold colorDelta
  split
  · exact Nat.zero_le _
  · split
    · exact (withinPow_brightnessDelta ha hb).mono (by decide)
    · exact withinPow_signedDelta ha hb

/-- Settles O34. -/
theorem deltaIsFinite : Obligations.DeltaIsFinite :=
  fun ca cb y => (withinPow_colorDelta ca cb y).isFinite (by decide)

/-! ### The blend and the gray blend at their ends (`40_color.md` R127, R130) -/

theorem towardWhite_cOne {n : Nat} (hn : n ≤ 255) : towardWhite (f64OfNat n) cOne = f64OfNat n := by
  unfold towardWhite
  rcases Nat.lt_or_eq_of_le hn with hlt | rfl
  · obtain ⟨hdiff, _⟩ := f64OfNat_exact (n := 255 - n) (by omega)
    rw [fsub_f64OfNat_c255 hlt, fmul_cOne (isFinite_fneg hdiff), fadd_c255_fneg hlt]
  · rw [f64OfNat_255, fsub, fadd_fneg_self isFinite_c255, fmul_cOne isFinite_cZero,
      fadd_zero_right isFinite_c255 fMag_c255_ne_zero rfl]

theorem towardWhite_cZero {v : F64} (h : isFinite (fsub v c255)) : towardWhite v cZero = c255 :=
  fadd_zero_right isFinite_c255 fMag_c255_ne_zero (magBits_fmul_cZero h)

theorem fdiv_c255_self : fdiv c255 c255 = cOne := by
  rw [fdiv_of_finite isFinite_c255 isFinite_c255 rfl]
  exact fRound_exact isFinite_cOne rfl (Nat.pos_of_ne_zero fMag_c255_ne_zero) (by rw [fMag_cOne, Nat.mul_comm])

theorem fdiv_cZero_c255 : fdiv cZero c255 = cZero := by
  rw [fdiv_of_finite isFinite_cZero isFinite_c255 rfl]
  exact fRound_exact isFinite_cZero rfl (Nat.pos_of_ne_zero fMag_c255_ne_zero)
    (by rw [fMag_cZero, Nat.zero_mul, Nat.zero_mul])

/-- Settles O27: with A = 255 the factor is 1.0 and the distance to white is an integer, with A = 0 the factor is 0. -/
theorem blendIsExactAtTheEnds : Obligations.BlendIsExactAtTheEnds := by
  intro c
  refine ⟨fun ha => ?_, fun ha => ?_⟩
  · have hfactor : fdiv (f64OfByte c.a) c255 = cOne := by
      rw [ha, show f64OfByte 255#8 = f64OfNat 255 from rfl, f64OfNat_255, fdiv_c255_self]
    have hexact : ∀ v : Byte, towardWhite (f64OfByte v) cOne = f64OfNat v.toNat :=
      fun v => towardWhite_cOne (Nat.le_of_lt_succ v.isLt)
    unfold blend
    rw [hfactor, hexact, hexact, hexact]
  · have hfactor : fdiv (f64OfByte c.a) c255 = cZero := by
      rw [ha, show f64OfByte 0#8 = f64OfNat 0 from rfl, f64OfNat_zero, fdiv_cZero_c255]
    have hwhite : ∀ v : Byte, towardWhite (f64OfByte v) cZero = f64OfNat 255 := by
      intro v
      rw [f64OfNat_255]
      exact towardWhite_cZero (((withinPow_f64OfByte v).fsub withinPow_c255 (by decide)).isFinite (by decide))
    unfold blend
    rw [hfactor, hwhite, hwhite, hwhite]

theorem truncU8_cZero : truncU8 cZero = 0#8 := by
  rw [truncU8, (fVal_eq_zero_iff cZero).2 rfl, Int.toNat_zero, Nat.zero_div]

theorem truncU8_c255 : truncU8 c255 = 255#8 := by
  have hval : (fVal c255).toNat = 255 * fOne := by rw [← fMag_c255]; rfl
  rw [truncU8, hval, Nat.mul_div_cancel _ fOne_pos]

theorem flt_self (x : F64) : flt x x = false := by
  unfold flt
  rw [decide_eq_false (lt_irrefl _), Bool.and_false]

theorem flt_c255_cZero : flt c255 cZero = false := by
  have hle : ¬fVal c255 < fVal cZero := by
    rw [(fVal_eq_zero_iff cZero).2 rfl]
    exact (Int.natCast_nonneg (fMag c255)).not_gt
  unfold flt
  rw [decide_eq_false hle, Bool.and_false]

theorem clamp255_c255 : clamp255 c255 = c255 := by
  unfold clamp255
  rw [flt_c255_cZero, flt_self]
  rfl

/-- Settles O29: the brightness is finite, so its distance to white vanishes under the factor 0. -/
theorem grayFactorZeroIsWhite : Obligations.GrayFactorZeroIsWhite := by
  intro c
  have hy : withinPow 10 (yOf (opaqueRgb c)) := withinPow_yOf (withinRgb_opaqueRgb c) (by decide)
  have hfin := (hy.fsub (withinPow_c255.mono (by decide)) (by decide)).isFinite (by decide)
  have hgray : grayLevel c cZero = 255#8 := by
    unfold grayLevel
    split
    · rfl
    · rw [towardWhite_cZero hfin, clamp255_c255, truncU8_c255]
  unfold grayblend
  rw [show 0x0000000000000000#64 = cZero from rfl, hgray]

/-! ### The commands (`40_color.md` R126, R128, R130) -/

/-- A forbidden access reaches none of RES0, RES1, RES2 (`70_reset_and_hazards.md` R240). -/
theorem complete_res012 (e : Option CmdError) (s : State) :
    (complete e s).res.res0 = s.res.res0 ∧ (complete e s).res.res1 = s.res.res1 ∧
    (complete e s).res.res2 = s.res.res2 := by
  unfold complete
  split <;> exact ⟨rfl, rfl, rfl⟩

/-- Settles O25. -/
theorem yiqWritesTheComponents : Obligations.YiqWritesTheComponents := by
  refine ⟨by decide, ?_⟩
  rintro s _ _ _ rfl rfl rfl
  exact ⟨_, rfl, ended_complete _ _, complete_res012 _ _⟩

/-- Settles O26. -/
theorem blendwBlendsOverWhite : Obligations.BlendwBlendsOverWhite := by
  refine ⟨by decide, ?_⟩
  rintro s _ rfl
  exact ⟨_, rfl, ended_complete _ _, complete_res012 _ _⟩

theorem inUnitRange_iff (v : F64) : inUnitRange v = true ↔ fle cZero v = true ∧ fle v cOne = true :=
  Bool.and_eq_true_iff

theorem exec_graybl_of_inRange {s : State} (h : inUnitRange s.opts.alpha = true) :
    exec .graybl s = .next (succeed { s with
      res := { s.res with resc := packColor (grayblend (unpackColor s.colin) s.opts.alpha) } }) :=
  behindGates_none (if_pos h) s _

theorem exec_graybl_of_outOfRange {s : State} (h : inUnitRange s.opts.alpha ≠ true) :
    exec .graybl s = .next (raiseError (.badParam .alphaRange) s) :=
  behindGates_some (if_neg h) s _

/-- The clamp and the truncation as one choice of a byte. -/
theorem truncU8_clamp255 (v : F64) :
    truncU8 (clamp255 v) = if flt v cZero then 0#8 else if flt c255 v then 255#8 else truncU8 v := by
  unfold clamp255
  rw [apply_ite truncU8, apply_ite truncU8, truncU8_cZero, truncU8_c255]

/-- Settles O28. -/
theorem grayblWritesTheGray : Obligations.GrayblWritesTheGray := by
  refine ⟨by decide, ?_⟩
  rintro s _ _ gray hs rfl rfl hgray
  have hlevel : grayLevel (unpackColor s.colin) s.opts.alpha = gray := by
    rw [hgray, grayLevel, truncU8_clamp255]
    rfl
  refine ⟨fun hin => ?_, fun hout => ?_⟩
  · refine ⟨_, exec_graybl_of_inRange ((inUnitRange_iff _).2 hin), ended_complete _ _, ?_⟩
    rw [succeed_eq, complete_resc, ← hlevel]
    rfl
  · refine ⟨_, exec_graybl_of_outOfRange (fun h => hout ((inUnitRange_iff _).1 h)), refusedWith_raiseError hs _, ?_⟩
    rw [raiseError_eq, complete_status]
    rfl

end Sys2Proof.Machine
end

section
/-! Binary64 up to the sign bit: a magnitude alone decides an absolute value, a square and a difference the other way
round, and a rounding and a square do not decrease as their magnitudes rise (`41_delta.md` R147, R148). -/

namespace Sys2Proof.Machine

/-! ### Up to the sign -/

theorem toNat_fabs (x : F64) : (fabs x).toNat = magBits x := by
  rw [fabs, BitVec.toNat_and, magBits]
  exact Nat.and_two_pow_sub_one_eq_mod x.toNat 63

theorem fabs_eq_iff (x y : F64) : fabs x = fabs y ↔ magBits x = magBits y := by
  rw [← BitVec.toNat_inj, toNat_fabs, toNat_fabs]

/-- `fsub(x,y)` and `fsub(y,x)` differ in sign only. -/
theorem magBits_fsub_comm {x y : F64} (hx : isFinite x) (hy : isFinite y) :
    magBits (fsub x y) = magBits (fsub y x) := by
  have hneg : fVal y + fVal (fneg x) = -(fVal x + fVal (fneg y)) := by rw [fVal_fneg, fVal_fneg]; omega
  unfold fsub
  by_cases hzero : fVal x + fVal (fneg y) = 0
  · rw [fadd_of_sum_zero hx (isFinite_fneg hy) hzero, fadd_of_sum_zero hy (isFinite_fneg hx) (by omega), magBits_fZero,
      magBits_fZero]
  · rw [fadd_of_sum_ne_zero hx (isFinite_fneg hy) hzero, fadd_of_sum_ne_zero hy (isFinite_fneg hx) (by omega),
      magBits_fRound, magBits_fRound, hneg, Int.natAbs_neg]

theorem fmul_self_of_finite {x : F64} (hx : isFinite x) : fmul x x = fRound false (fMag x * fMag x) fOne := by
  rw [fmul_of_finite hx hx, bne_self_eq_false]

/-- A square does not see the sign. -/
theorem fmul_self_congr {x y : F64} (hx : isFinite x) (hm : magBits x = magBits y) : fmul x x = fmul y y := by
  have hy : isFinite y := (isFinite_iff y).2 (hm ▸ (isFinite_iff x).1 hx)
  rw [fmul_self_of_finite hx, fmul_self_of_finite hy, fMag_eq_bitsMag x, fMag_eq_bitsMag y, hm]

/-! ### The order of the magnitudes -/

/-- Of two roundings the one of the larger value is not smaller: were it smaller, each value would lie on the other's
side of the middle between them. -/
theorem roundBits_mono {m n den : Nat} (hden : 0 < den) (h : m ≤ n) : roundBits m den ≤ roundBits n den := by
  rw [roundBits_eq_min, roundBits_eq_min]
  refine min_le_min_right _ (Nat.le_of_not_lt fun hlt => ?_)
  obtain ⟨hm, _⟩ := roundRaw_nearest m hden (roundRaw n den)
  obtain ⟨hn, _⟩ := roundRaw_nearest n hden (roundRaw m den)
  have hmag := Nat.mul_lt_mul_of_pos_right (bitsMag_strictMono hlt) hden
  have hne : m ≠ n := by rintro rfl; exact lt_irrefl _ hlt
  unfold natDist at hm hn
  omega

theorem magBits_fRound_mono {m n den : Nat} (s t : Bool) (hden : 0 < den) (h : m ≤ n) :
    magBits (fRound s m den) ≤ magBits (fRound t n den) := by
  rw [magBits_fRound, magBits_fRound]
  exact roundBits_mono hden h

theorem fMag_le_iff (x y : F64) : fMag x ≤ fMag y ↔ magBits x ≤ magBits y := by
  rw [fMag_eq_bitsMag, fMag_eq_bitsMag, bitsMag_strictMono.le_iff_le]

/-- A product's magnitude does not decrease as the operands' magnitudes rise. -/
theorem fMag_fmul_mono {x y x' y' : F64} (hx : isFinite x) (hy : isFinite y) (hx' : isFinite x') (hy' : isFinite y')
    (hxx : fMag x ≤ fMag x') (hyy : fMag y ≤ fMag y') : fMag (fmul x y) ≤ fMag (fmul x' y') := by
  rw [fMag_le_iff, fmul_of_finite hx hy, fmul_of_finite hx' hy']
  exact magBits_fRound_mono _ _ fOne_pos (Nat.mul_le_mul hxx hyy)

theorem fVal_of_fSign {x : F64} (h : fSign x = false) : fVal x = fMag x := by
  rw [fVal_eq_signed, h]
  rfl

theorem fle_iff (x y : F64) : fle x y = true ↔ fIsNaN x = false ∧ fIsNaN y = false ∧ fVal x ≤ fVal y := by
  simp [fle, and_assoc]

end Sys2Proof.Machine
end

section
/-! The colour-delta unit: the delta by its steps (O32), its magnitude both ways round (O33), the activation threshold
(O35) and the command CDELTA (O31). -/

namespace Sys2Proof.Machine

/-! ### The delta of two colours (`41_delta.md` R143 to R147) -/

/-- Step 3 by the alpha that leaves the colour as it stands (`41_delta.md` R144). -/
theorem overWhite_eq (c : Color) : overWhite c = if c.a = 255#8 then opaqueRgb c else blend c := by
  have ha : c.a.toNat < 255 ↔ c.a ≠ 255#8 := by
    have hlt := c.a.isLt
    rw [Ne, ← BitVec.toNat_inj]
    simp only [BitVec.toNat_ofNat]
    omega
  rw [overWhite, ← ite_not]
  simp only [ha, ne_eq, not_not]

theorem colorDelta_self (c : Color) (y : Bool) : colorDelta c c y = cZero := if_pos rfl

theorem colorDelta_onlyY {ca cb : Color} (h : ca ≠ cb) :
    colorDelta ca cb true = brightnessDelta (overWhite ca) (overWhite cb) := by
  rw [colorDelta, if_neg h, if_pos rfl]

theorem colorDelta_full {ca cb : Color} (h : ca ≠ cb) :
    colorDelta ca cb false = signedDelta (overWhite ca) (overWhite cb) := by
  rw [colorDelta, if_neg h, if_neg Bool.false_ne_true]

/-- Settles O32. -/
theorem deltaBySteps : Obligations.DeltaBySteps := by
  rintro ca cb _ _ _ _ _ _ rfl rfl rfl rfl rfl rfl
  have ha := overWhite_eq ca
  have hb := overWhite_eq cb
  refine ⟨?_, fun h => ?_, fun h hy => ?_, fun h hy => ?_⟩
  · rintro rfl y
    exact colorDelta_self ca y
  · rw [colorDelta_onlyY h, ha, hb]
    rfl
  · rw [colorDelta_full h, ha, hb]
    exact if_pos hy
  · rw [colorDelta_full h, ha, hb]
    exact if_neg (Bool.eq_false_iff.1 hy)

/-! ### Its magnitude (`41_delta.md` R147) -/

/-- Every difference is squared, so the weighted sum does not see which colour came first. -/
theorem squaredDelta_comm {p q : Rgb} (hp : withinRgb 18 p) (hq : withinRgb 18 q) :
    squaredDelta p q = squaredDelta q p := by
  have hsquare : ∀ {x y : F64}, withinPow 20 x → withinPow 20 y →
      fmul (fsub x y) (fsub x y) = fmul (fsub y x) (fsub y x) := fun hx hy =>
    fmul_self_congr ((hx.fsub hy (by decide)).isFinite (by decide))
      (magBits_fsub_comm (hx.isFinite (by decide)) (hy.isFinite (by decide)))
  unfold squaredDelta weighted brightnessDelta
  rw [hsquare (withinPow_yOf hp (by decide)) (withinPow_yOf hq (by decide)),
    hsquare (withinPow_iOf hp (by decide)) (withinPow_iOf hq (by decide)),
    hsquare (withinPow_qOf hp (by decide)) (withinPow_qOf hq (by decide))]

/-- Step 7 touches the sign bit alone. -/
theorem magBits_signedDelta (p q : Rgb) : magBits (signedDelta p q) = magBits (squaredDelta p q) := by
  unfold signedDelta
  split
  · exact magBits_or_sign _
  · rfl

/-- Settles O33. -/
theorem deltaMagnitudeIsSymmetric : Obligations.DeltaMagnitudeIsSymmetric := by
  intro ca cb
  by_cases h : ca = cb
  · rw [h]
  · rw [fabs_eq_iff, colorDelta_full h, colorDelta_full (Ne.symm h), magBits_signedDelta, magBits_signedDelta,
      squaredDelta_comm (withinRgb_overWhite ca) (withinRgb_overWhite cb)]

/-! ### The activation threshold (`41_delta.md` R148) -/

theorem isFinite_yMax : isFinite yMax := ⟨rfl, rfl⟩

/-- The square of a threshold in [0,1] is in [0,1]. -/
theorem withinPow_fmul_self {t : F64} (h : withinPow 0 t) : withinPow 0 (fmul t t) := by
  have hprod := h.fmul h (by decide) (by decide)
  rwa [Nat.add_zero] at hprod

theorem fVal_maxDeltaOf {t : F64} (h : withinPow 0 t) : fVal (maxDeltaOf t) = fMag (maxDeltaOf t) := by
  have hsquare := (withinPow_fmul_self h).isFinite (by decide)
  refine fVal_of_fSign ?_
  rw [maxDeltaOf, fmul_of_finite isFinite_yMax hsquare, fmul_self_of_finite (h.isFinite (by decide)), fSign_fRound,
    fSign_fRound]
  rfl

theorem isFinite_maxDeltaOf {t : F64} (h : withinPow 0 t) : isFinite (maxDeltaOf t) := by
  have hmax : withinPow 16 yMax := by unfold withinPow; decide
  exact (hmax.fmul (withinPow_fmul_self h) (by decide) (by decide)).isFinite (by decide)

/-- Settles O35: a rounded product of non-negative factors is monotone. -/
theorem maxDeltaIsMonotone : Obligations.MaxDeltaIsMonotone := by
  intro t u hzero htu hone
  obtain ⟨_, _, hzero⟩ := (fle_iff _ _).1 hzero
  obtain ⟨_, _, htu⟩ := (fle_iff _ _).1 htu
  obtain ⟨_, _, hone⟩ := (fle_iff _ _).1 hone
  rw [show (0#64 : F64) = cZero from rfl, (fVal_eq_zero_iff cZero).2 rfl] at hzero
  rw [show (0x3FF0000000000000#64 : F64) = cOne from rfl, fVal_of_fSign (x := cOne) rfl, fMag_cOne] at hone
  have hmag : fMag t ≤ fMag u := by rw [← natAbs_fVal, ← natAbs_fVal]; omega
  have hu : withinPow 0 u := by rw [withinPow_iff, ← natAbs_fVal]; omega
  have ht : withinPow 0 t := ((fMag_le_iff t u).1 hmag).trans hu
  have htfin := ht.isFinite (by decide)
  have hufin := hu.isFinite (by decide)
  have hsquare : fMag (fmul t t) ≤ fMag (fmul u u) := fMag_fmul_mono htfin htfin hufin hufin hmag hmag
  have hmax : fMag (maxDeltaOf t) ≤ fMag (maxDeltaOf u) :=
    fMag_fmul_mono isFinite_yMax ((withinPow_fmul_self ht).isFinite (by decide)) isFinite_yMax
      ((withinPow_fmul_self hu).isFinite (by decide)) le_rfl hsquare
  rw [fle_iff, fVal_maxDeltaOf ht, fVal_maxDeltaOf hu]
  exact ⟨(isFinite_maxDeltaOf ht).1, (isFinite_maxDeltaOf hu).1, Int.ofNat_le.2 hmax⟩

/-! ### CDELTA (`41_delta.md` R149) -/

theorem delta_of_read {s : State} {s1 s2 : Sel} {p q : Point} {ca cb : Color} (ha : canonPixel s s1 p = .ok ca)
    (hb : canonPixel s s2 q = .ok cb) (y : Bool) : delta s s1 p s2 q y = .ok (colorDelta ca cb y) := by
  rw [delta, ha, hb, ok_bind, ok_bind]

theorem bufSet_eq (s1 s2 : Sel) : bufSet s1 s2 = if s1 = s2 then [s1] else [.a, .b] := by
  cases s1 <;> cases s2 <;> rfl

theorem exec_cdelta_of_delta {s : State} {y : Bool} {s1 s2 : Sel} {d : F64}
    (hpre : precheck s (cdeltaChecks s1 s2) = none) (hd : delta s s1 s.ptP.point s2 s.ptQ.point y = .ok d) :
    exec (.cdelta y s1 s2) s = .next (succeed { s with res := { s.res with res0 := d } }) := by
  have hbody : exec (.cdelta y s1 s2) s = settle (delta s s1 s.ptP.point s2 s.ptQ.point y >>= fun d =>
      .ok (succeed { s with res := { s.res with res0 := d } })) := behindGates_none hpre s _
  rw [hbody, hd, ok_bind, settle_ok]

/-- Settles O31. -/
theorem cdeltaWritesTheDelta : Obligations.CdeltaWritesTheDelta := by
  refine ⟨fun y s1 s2 => ?_, ?_⟩
  · exact (decodeInvertsEncode _ _).2 ⟨rfl, by cases y <;> cases s1 <;> cases s2 <;> rfl⟩
  rintro s y s1 s2 _ hs rfl
  rw [← bufSet_eq]
  refine ⟨fun ca cb hpre ha hb => ?_, fun e he => ?_⟩
  · refine ⟨_, exec_cdelta_of_delta hpre (delta_of_read ha hb y), ended_complete _ _, ?_⟩
    obtain ⟨hres0, _, _⟩ := complete_res012 none { s with res := { s.res with res0 := colorDelta ca cb y } }
    exact hres0
  · exact ⟨_, behindGates_some he s _, refusedWith_raiseError hs e⟩

end Sys2Proof.Machine
end

section
/-! PIXEL (O44): the class and the colour of one pixel. MAXDELTA is written before the pixel is judged, and of the units
that read pixels only the class looks at it. -/

namespace Sys2Proof.Machine

/-! ### The classifier does not look at the result registers -/

/-- The result registers hold r. `withMaxDelta` is the case where only MAXDELTA changes. -/
def withRes (r : Results) (s : State) : State := { s with res := r }

section
variable (r : Results) (s : State)

theorem delta_withRes (s1 : Sel) (p : Point) (s2 : Sel) (q : Point) (y : Bool) :
    delta (withRes r s) s1 p s2 q y = delta s s1 p s2 q y := rfl

theorem imgBytes_withRes (sel : Sel) (off n : Nat) : imgBytes (withRes r s) sel off n = imgBytes s sel off n := by
  induction n generalizing off with
  | zero => rfl
  | succ n ih => exact bind_congr fun v => congrArg (· >>= fun rest => .ok (v :: rest)) (ih (off + 1))

theorem sameLoop_withRes (sel : Sel) (p : Point) (n : Nat) (qs : List Point) (c : Nat) :
    sameLoop (withRes r s) sel p n qs c = sameLoop s sel p n qs c := by
  have hraw : ∀ q, rawPixel (withRes r s) sel q = rawPixel s sel q := fun q => imgBytes_withRes r s sel _ _
  induction qs generalizing c with
  | nil => rfl
  | cons q qs ih => simp only [sameLoop, hraw, ih]

theorem extremaLoop_withRes (sel : Sel) (p : Point) (qs : List Point) (e : Extrema) :
    extremaLoop (withRes r s) sel p qs e = extremaLoop s sel p qs e := by
  induction qs generalizing e with
  | nil => rfl
  | cons q qs ih => simp only [extremaLoop, delta_withRes, ih]

theorem antialiased_withRes (sa sb : Sel) (p : Point) :
    antialiased (withRes r s) sa sb p = antialiased s sa sb p := by
  have hsame : ∀ sel q, sameNeighbors (withRes r s) sel q aaSame = sameNeighbors s sel q aaSame :=
    fun sel q => sameLoop_withRes r s sel q aaSame _ _
  unfold antialiased extremaVerdict sameInBoth
  simp only [extremaLoop_withRes, hsame]
  rfl

theorem aaEither_withRes (p : Point) : aaEither (withRes r s) p = aaEither s p := by
  unfold aaEither
  simp only [antialiased_withRes]

end

/-! ### The anti-aliasing test asked both ways (`43_compare.md` R176) -/

theorem aaEither_of_first {s : State} {p : Point} (h : antialiased s .a .b p = .ok true) :
    aaEither s p = .ok true := by
  rw [aaEither, h, ok_bind, if_pos rfl]

theorem aaEither_of_second {s : State} {p : Point} {v : Bool} (h : antialiased s .a .b p = .ok false)
    (hv : antialiased s .b .a p = .ok v) : aaEither s p = .ok v := by
  rw [aaEither, h, ok_bind, if_neg Bool.false_ne_true, hv]

/-! ### The class (`43_compare.md` R176) -/

section
variable {s : State} {p : Point} {d : F64} {aa : Bool}

theorem overClass_of_aaEither (haa : s.opts.flags.includeAa = false → aaEither s p = .ok aa) :
    overClass s p = .ok (if !s.opts.flags.includeAa && aa then .antialiased else .different) := by
  unfold overClass
  cases hinclude : s.opts.flags.includeAa with
  | true => rfl
  | false => rw [if_neg Bool.false_ne_true, haa hinclude, ok_bind, Bool.not_false, Bool.true_and]

theorem classify_of_delta (hd : delta s .a p .b p false = .ok d)
    (haa : flt s.res.maxDelta (fabs d) = true → s.opts.flags.includeAa = false → aaEither s p = .ok aa) :
    classify s p = .ok (d, if flt s.res.maxDelta (fabs d) then
      (if !s.opts.flags.includeAa && aa then .antialiased else .different) else .unchanged) := by
  rw [classify, hd, ok_bind]
  by_cases hover : flt s.res.maxDelta (fabs d) = true
  · rw [if_pos hover, if_pos hover, overClass_of_aaEither (haa hover), ok_bind]
  · rw [if_neg hover, if_neg hover]

end

/-! ### The selector (`43_compare.md` R175) -/

theorem packColor_unpackColor (w : ColorWord) : packColor (unpackColor w) = w := by
  have hfields : packColor (unpackColor w) =
      w.extractLsb' 24 8 ++ w.extractLsb' 16 8 ++ w.extractLsb' 8 8 ++ w.extractLsb' 0 8 := rfl
  rw [hfields, BitVec.extractLsb'_append_extractLsb'_eq_extractLsb' (show 24 = 16 + 8 from rfl),
    BitVec.extractLsb'_append_extractLsb'_eq_extractLsb' (show 16 = 8 + 8 from rfl),
    BitVec.extractLsb'_append_extractLsb'_eq_extractLsb' (show 8 = 0 + 8 from rfl)]
  exact BitVec.extractLsb'_eq_self

theorem packColor_diffColorFor (o : Options) (d : F64) :
    packColor (diffColorFor o d) = if o.flags.altValid && flt d cZero then o.diffColorAlt else o.diffColor := by
  rw [diffColorFor, apply_ite packColor, packColor_unpackColor, packColor_unpackColor]

theorem writesPixel_eq (f : Flags) (c : PixelClass) :
    writesPixel f c = (f.outputEn && (c = .different || !f.diffMask)) := by
  cases c <;> simp [writesPixel]

/-- The colour of a pixel whose colour in A is ca, class by class. -/
theorem colorFor_of_read {s : State} {p : Point} {ca : Color} (h : canonPixel s .a p = .ok ca) (d : F64)
    (c : PixelClass) :
    ∃ col, colorFor s p d c = .ok col ∧ (c = .antialiased → packColor col = s.opts.aaColor) ∧
      (c = .different → packColor col =
        if s.opts.flags.altValid && flt d cZero then s.opts.diffColorAlt else s.opts.diffColor) ∧
      (c = .unchanged → col = grayblend ca s.opts.alpha) := by
  cases c with
  | antialiased => exact ⟨_, rfl, fun _ => packColor_unpackColor _, nofun, nofun⟩
  | different => exact ⟨_, rfl, nofun, fun _ => packColor_diffColorFor _ _, nofun⟩
  | unchanged => exact ⟨grayblend ca s.opts.alpha, by rw [colorFor, h, ok_bind], nofun, nofun, fun _ => rfl⟩

/-! ### PIXEL (`43_compare.md` R177) -/

theorem judge_of_classify {s : State} {p : Point} {d : F64} {c : PixelClass} {col : Color}
    (hc : classify s p = .ok (d, c)) (hcol : colorFor s p d c = .ok col) :
    judge s p = .ok { d := d, cls := c, wr := writesPixel s.opts.flags c, col := col } := by
  rw [judge, hc, ok_bind, hcol, ok_bind]

theorem exec_pixel_of_judge {s : State} {v : Verdict} (hs : s.touched = false)
    (hpre : precheck s pixelChecks = none) (hv : judge (withMaxDelta s) s.ptP.point = .ok v) :
    exec .pixel s = .next (finish none (pixelResult v (withMaxDelta s))) := by
  have hbody : exec .pixel s = settle (judge (withMaxDelta s) s.ptP.point >>= fun v =>
      .ok (succeed (pixelResult v (withMaxDelta s)))) := behindGates_none hpre s _
  have hdone : succeed (pixelResult v (withMaxDelta s)) = finish none (pixelResult v (withMaxDelta s)) :=
    complete_untouched none hs
  rw [hbody, hv, ok_bind, settle_ok, hdone]

/-- Settles O44: PIXEL judges its point with MAXDELTA already written, and nothing but the class sees that. -/
theorem pixelJudgesOnePixel : Obligations.PixelJudgesOnePixel := by
  refine ⟨fun s p v => ⟨aaEither_of_first, aaEither_of_second⟩, ?_⟩
  rintro s _ _ hs rfl rfl
  refine ⟨?_, fun e he => ⟨_, behindGates_some he s _, refusedWith_raiseError hs e⟩⟩
  rintro ca cb _ aa hpre ha hb rfl haa
  have hview : aaEither (withMaxDelta s) s.ptP.point = aaEither s s.ptP.point := aaEither_withRes _ s _
  have hclass := classify_of_delta (s := withMaxDelta s) (delta_of_read ha hb false)
    (fun hover hinclude => hview.trans (haa hover hinclude))
  obtain ⟨col, hcol, haaColor, hdiffColor, hgray⟩ := colorFor_of_read (s := withMaxDelta s) ha _ _
  refine ⟨_, exec_pixel_of_judge hs hpre (judge_of_classify hclass hcol), ⟨rfl, rfl, rfl⟩, rfl, rfl, rfl,
    writesPixel_eq _ _, rfl, fun hwr => if_neg (Bool.eq_false_iff.1 hwr), fun hwr hc => ?_, fun hwr hc => ?_,
    fun hwr hc => ?_⟩
  · exact (if_pos hwr).trans (haaColor hc)
  · exact (if_pos hwr).trans (hdiffColor hc)
  · exact (if_pos hwr).trans (congrArg packColor (hgray hc))

end Sys2Proof.Machine
end

section
/-! The window of a point (O36, O37, O38): which points it holds, in which order, and when the point lies on the border. -/

namespace Sys2Proof.Machine

/-! ### One axis (`42_neighborhood.md` R150) -/

theorem mem_intRange_iff (low high v : Nat) : v ∈ intRange low high ↔ low ≤ v ∧ v ≤ high := by
  rw [intRange, List.mem_range'_1]
  omega

theorem windowLow_eq (v : Nat) : windowLow v = v - 1 := by
  unfold windowLow
  split <;> omega

/-- The window of an inside point on one axis is the inside integers at most 1 away. -/
theorem mem_axis_iff {v size : Nat} (hv : v < size) (u : Nat) :
    u ∈ intRange (windowLow v) (windowHigh v size) ↔ u < size ∧ u ≤ v + 1 ∧ v ≤ u + 1 := by
  rw [mem_intRange_iff, windowLow_eq, windowHigh]
  omega

theorem length_axis_le (v size : Nat) : (intRange (windowLow v) (windowHigh v size)).length ≤ 3 := by
  rw [intRange, List.length_range', windowLow_eq, windowHigh]
  omega

/-- The window of an interior point on one axis. -/
theorem axis_of_interior {v size : Nat} (hv : v + 2 < size) :
    intRange (windowLow (v + 1)) (windowHigh (v + 1) size) = [v, v + 1, v + 2] := by
  have hhigh : windowHigh (v + 1) size = v + 2 := by rw [windowHigh]; omega
  have hlength : v + 2 + 1 - v = 3 := by omega
  rw [windowLow_eq, hhigh, intRange, Nat.add_sub_cancel, hlength]
  rfl

/-- An inside point is at an end of its own window on one axis exactly at an end of the axis. -/
theorem axis_end_iff {v size : Nat} (hv : v < size) :
    (v = windowLow v ∨ v = windowHigh v size) ↔ (v = 0 ∨ v + 1 = size) := by
  rw [windowLow_eq, windowHigh]
  omega

/-! ### The block -/

theorem window_eq_product (d : Desc) (p : Point) :
    window d p = (intRange (windowLow p.x) (windowHigh p.x d.width) ×ˢ
      intRange (windowLow p.y) (windowHigh p.y d.height)).map fun xy => ⟨xy.1, xy.2⟩ := by
  refine Eq.trans ?_ List.map_flatMap.symm
  simp only [window, List.map_map, Function.comp_def]

theorem window_nodup (d : Desc) (p : Point) : (window d p).Nodup := by
  rw [window_eq_product]
  refine (List.Nodup.product List.nodup_range' List.nodup_range').map fun a b h => ?_
  injection h with hx hy
  exact Prod.ext hx hy

theorem length_window_le (d : Desc) (p : Point) : (window d p).length ≤ 9 := by
  rw [window_eq_product, List.length_map, List.length_product]
  exact Nat.mul_le_mul (length_axis_le _ _) (length_axis_le _ _)

theorem mem_window_iff {d : Desc} {p : Point} (hp : d.inside p = true) (q : Point) :
    q ∈ window d p ↔ d.inside q = true ∧ (q.x ≤ p.x + 1 ∧ p.x ≤ q.x + 1) ∧ q.y ≤ p.y + 1 ∧ p.y ≤ q.y + 1 := by
  obtain ⟨hx, hy⟩ := (Desc.inside_iff d p).1 hp
  have hmem : q ∈ window d p ↔ q.x ∈ intRange (windowLow p.x) (windowHigh p.x d.width) ∧
      q.y ∈ intRange (windowLow p.y) (windowHigh p.y d.height) := by
    rw [window_eq_product, List.mem_map]
    constructor
    · rintro ⟨xy, hxy, rfl⟩
      exact List.mem_product.1 hxy
    · exact fun h => ⟨(q.x, q.y), List.mem_product.2 h, rfl⟩
  rw [hmem, mem_axis_iff hx, mem_axis_iff hy, Desc.inside_iff, and_and_and_comm]

/-- Settles O36: the window is a product of two ranges of at most three integers, and the point itself is left out. -/
theorem neighboursAreTheClampedBlock : Obligations.NeighboursAreTheClampedBlock := by
  intro d p hp
  refine ⟨(window_nodup d p).filter _, ?_, fun q => ?_⟩
  · have hself : p ∈ window d p := (mem_window_iff hp p).2 ⟨hp, by omega⟩
    have hshorter : (neighbours d p).length < (window d p).length :=
      List.length_filter_lt_length_iff_exists.2 ⟨p, hself, by simp⟩
    have hnine := length_window_le d p
    omega
  · rw [neighbours, List.mem_filter, mem_window_iff hp, decide_eq_true_eq, and_comm, and_assoc]

/-- Settles O37: both axes have three integers, and the filter drops the middle point. -/
theorem scanOrderIsColumnFirst : Obligations.ScanOrderIsColumnFirst := by
  intro d x y hx hy
  have hwindow : window d ⟨x + 1, y + 1⟩ =
      [x, x + 1, x + 2].flatMap fun u => [y, y + 1, y + 2].map fun v => ⟨u, v⟩ := by
    exact congrArg₂ (fun xs ys => xs.flatMap fun u => ys.map fun v => (⟨u, v⟩ : Point))
      (axis_of_interior hx) (axis_of_interior hy)
  rw [neighbours, hwindow]
  simp

/-! ### The bump (`42_neighborhood.md` R151) -/

theorem bump_le_one (d : Desc) (p : Point) : bump d p ≤ 1 := by
  unfold bump
  split <;> decide

/-- Settles O38. -/
theorem bumpIsOneOnTheBorder : Obligations.BumpIsOneOnTheBorder := by
  intro d p hp
  obtain ⟨hx, hy⟩ := (Desc.inside_iff d p).1 hp
  refine if_congr ?_ rfl rfl
  rw [← or_assoc, axis_end_iff hx, axis_end_iff hy, or_assoc]
  rfl

end Sys2Proof.Machine
end

section
/-! `same_neighbors` (O39) and SAMENB (O40). -/

namespace Sys2Proof.Machine

/-! ### The loop with its early return (`42_neighborhood.md` R153) -/

/-- From a count that has not passed n yet, the early return answers what the whole count would. -/
theorem sameLoop_eq_count {s : State} {sel : Sel} {p : Point} {n : Nat} {raw : Point → List Byte}
    (hp : rawPixel s sel p = .ok (raw p)) (qs : List Point) (hqs : ∀ q ∈ qs, rawPixel s sel q = .ok (raw q)) (c : Nat)
    (hc : c ≤ n) :
    sameLoop s sel p n qs c = .ok (decide (n < c + qs.countP fun q => decide (raw q = raw p))) := by
  induction qs generalizing c with
  | nil => rw [sameLoop, List.countP_nil, Nat.add_zero, decide_eq_false (Nat.not_lt.2 hc)]
  | cons q qs ih =>
    obtain ⟨hq, hrest⟩ := List.forall_mem_cons.1 hqs
    rw [sameLoop, hq, ok_bind, hp, ok_bind]
    by_cases hsame : raw q = raw p
    · rw [if_pos hsame, List.countP_cons_of_pos (p := fun q => decide (raw q = raw p)) (decide_eq_true hsame)]
      by_cases hlast : c + 1 > n
      · rw [if_pos hlast, decide_eq_true (by omega)]
      · rw [if_neg hlast, ih hrest _ (by omega), Nat.add_right_comm, Nat.add_assoc]
    · rw [if_neg hsame, List.countP_cons_of_neg (by simpa using hsame), ih hrest _ hc]

/-- Settles O39: the bump, at most 1, has not passed n. -/
theorem sameNeighborsCounts : Obligations.SameNeighborsCounts := by
  intro s sel p n raw hn hraw
  obtain ⟨hp, hqs⟩ := List.forall_mem_cons.1 hraw
  exact sameLoop_eq_count hp _ hqs _ ((bump_le_one _ p).trans hn)

/-! ### The commands that answer in RESB.BOOL -/

/-- SAMENB and AA behind their gates: the answer of the unit becomes RESB.BOOL. -/
theorem resBool_of_answer {gate : Option CmdError} {s : State} {x : Except Fault Bool} {v : Bool} (hgate : gate = none)
    (hx : x = .ok v) :
    ∃ t, behindGates gate s (x >>= fun v => .ok (succeed { s with res := { s.res with resBool := v } })) = .next t ∧
      ended t none ∧ t.res.resBool = v := by
  subst hgate hx
  exact ⟨_, rfl, ended_complete _ _, complete_resBool _ _⟩

/-! ### SAMENB (`42_neighborhood.md` R154) -/

theorem nCheck_of_ne_zero {n : Nat} (h : n ≠ 0) : nCheck n = none := if_neg h

/-- Settles O40: the test of N is the first gate, the precheck the second. -/
theorem samenbTestsTheCount : Obligations.SamenbTestsTheCount := by
  refine ⟨fun sel n hn => ?_, fun s sel n hs => ⟨?_, fun e hn he => ?_, ?_⟩⟩
  · exact (decodeInvertsEncode _ _).2 ⟨decide_eq_true hn, by cases sel <;> rfl⟩
  · rintro rfl
    obtain ⟨_, _, herr⟩ := ended_complete (some (.badParam .nRange)) s
    exact ⟨_, rfl, refusedWith_raiseError hs _, congrArg errInfo herr⟩
  · have hgate : (nCheck n).or (precheck s (oneBufferChecks sel)) = some e := by rw [nCheck_of_ne_zero hn]; exact he
    exact ⟨_, behindGates_some hgate s _, refusedWith_raiseError hs e⟩
  · rintro p raw hn hpre rfl hraw
    have hgate : (nCheck n).or (precheck s (oneBufferChecks sel)) = none := by rw [nCheck_of_ne_zero hn]; exact hpre
    exact resBool_of_answer hgate (sameNeighborsCounts s sel _ n raw (Nat.pos_of_ne_zero hn) hraw)

end Sys2Proof.Machine
end

section
/-! The detector `antialiased` (O41, O42) and AA (O43). Its loop is brought into closed form: min stays at or below 0 and
max at or above, so the flat count, the smallest difference and the largest one are carried independently of each other,
and both records are folds of one step, `keepBetter`, over the neighbours. -/

namespace Sys2Proof.Machine

/-! ### Comparisons (`00_scope.md` R9) -/

theorem flt_iff (x y : F64) : flt x y = true ↔ fIsNaN x = false ∧ fIsNaN y = false ∧ fVal x < fVal y := by
  simp [flt, and_assoc]

theorem feq_iff (x y : F64) : feq x y = true ↔ fIsNaN x = false ∧ fIsNaN y = false ∧ fVal x = fVal y := by
  simp [feq, and_assoc]

theorem fle_of_flt {x y : F64} (h : flt x y = true) : fle x y = true := by
  obtain ⟨hx, hy, hlt⟩ := (flt_iff x y).1 h
  exact (fle_iff x y).2 ⟨hx, hy, hlt.le⟩

theorem flt_of_flt_of_fle {x y z : F64} (hxy : flt x y = true) (hyz : fle y z = true) : flt x z = true := by
  obtain ⟨hx, _, hlt⟩ := (flt_iff x y).1 hxy
  obtain ⟨_, hz, hle⟩ := (fle_iff y z).1 hyz
  exact (flt_iff x z).2 ⟨hx, hz, hlt.trans_le hle⟩

theorem flt_of_fle_of_flt {x y z : F64} (hxy : fle x y = true) (hyz : flt y z = true) : flt x z = true := by
  obtain ⟨hx, _, hle⟩ := (fle_iff x y).1 hxy
  obtain ⟨_, hz, hlt⟩ := (flt_iff y z).1 hyz
  exact (flt_iff x z).2 ⟨hx, hz, hle.trans_lt hlt⟩

theorem flt_of_fle_of_not_feq {x y : F64} (hle : fle x y = true) (hne : feq x y = false) : flt x y = true := by
  obtain ⟨hx, hy, hval⟩ := (fle_iff x y).1 hle
  rw [Bool.eq_false_iff, Ne, feq_iff] at hne
  exact (flt_iff x y).2 ⟨hx, hy, lt_of_le_of_ne hval fun h => hne ⟨hx, hy, h⟩⟩

theorem feq_eq_false_of_flt {x y : F64} (h : flt x y = true) : feq x y = false := by
  rw [Bool.eq_false_iff, Ne, feq_iff]
  rintro ⟨_, _, heq⟩
  obtain ⟨_, _, hlt⟩ := (flt_iff x y).1 h
  exact hlt.ne heq

theorem feq_cZero_self : feq cZero cZero = true := (feq_iff _ _).2 ⟨isFinite_cZero.1, isFinite_cZero.1, rfl⟩

theorem feq_comm (x y : F64) : feq x y = feq y x := by
  rw [Bool.eq_iff_iff, feq_iff, feq_iff]
  tauto

theorem flt_asymm {x y : F64} (h : flt x y = true) : flt y x = false := by
  rw [Bool.eq_false_iff, Ne, flt_iff]
  rintro ⟨_, _, hgt⟩
  obtain ⟨_, _, hlt⟩ := (flt_iff x y).1 h
  exact hlt.asymm hgt

/-- `x > y`, so that the two records differ in the comparison alone. -/
def fgt (x y : F64) : Bool := flt y x

/-! ### The first-visited best of a list -/

section
variable (better : F64 → F64 → Bool)

/-- The record of the best difference so far and its point, offered the difference d of q: only a better one is taken,
so the first visited stays (`42_neighborhood.md` R156). -/
def keepBetter (best : F64 × Point) (q : Point) (d : F64) : F64 × Point := if better d best.1 then (d, q) else best

/-- The record after the points qs with the differences dy. -/
def bestOf (dy : Point → F64) (qs : List Point) (start : F64 × Point) : F64 × Point :=
  qs.foldl (fun best q => keepBetter better best q (dy q)) start

/-- q is the first-visited best point: better than every one before it, no worse than any after it. -/
def firstBest (dy : Point → F64) (qs : List Point) (q : Point) : Prop :=
  ∃ before after, qs = before ++ q :: after ∧
    (∀ r ∈ before, better (dy q) (dy r) = true) ∧ (∀ r ∈ after, better (dy r) (dy q) = false)

end

theorem firstSmallest_iff (dy : Point → F64) (qs : List Point) (q : Point) :
    firstSmallest dy qs q ↔ firstBest flt dy qs q := Iff.rfl

theorem firstLargest_iff (dy : Point → F64) (qs : List Point) (q : Point) :
    firstLargest dy qs q ↔ firstBest fgt dy qs q := Iff.rfl

section
variable {better : F64 → F64 → Bool} {dy : Point → F64}

theorem keepBetter_eq (best : F64 × Point) (q : Point) (d : F64) :
    keepBetter better best q d = (if better d best.1 then d else best.1, if better d best.1 then q else best.2) := by
  unfold keepBetter
  split <;> rfl

theorem bestOf_of_none_better {qs : List Point} {start : F64 × Point} (h : ∀ q ∈ qs, better (dy q) start.1 = false) :
    bestOf better dy qs start = start := by
  induction qs with
  | nil => rfl
  | cons q qs ih =>
    obtain ⟨hq, hqs⟩ := List.forall_mem_cons.1 h
    have hstep : keepBetter better start q (dy q) = start := if_neg (Bool.eq_false_iff.1 hq)
    exact (congrArg (bestOf better dy qs) hstep).trans (ih hqs)

/-- A point better than the start and than all points visited is better than the record. -/
theorem better_bestOf {x : F64} {qs : List Point} {start : F64 × Point} (hstart : better x start.1 = true)
    (h : ∀ q ∈ qs, better x (dy q) = true) : better x (bestOf better dy qs start).1 = true := by
  induction qs generalizing start with
  | nil => exact hstart
  | cons q qs ih =>
    obtain ⟨hq, hqs⟩ := List.forall_mem_cons.1 h
    refine ih (start := keepBetter better start q (dy q)) ?_ hqs
    unfold keepBetter
    split
    · exact hq
    · exact hstart

theorem bestOf_firstBest {qs : List Point} {q : Point} {start : F64 × Point} (h : firstBest better dy qs q)
    (hstart : better (dy q) start.1 = true) : bestOf better dy qs start = (dy q, q) := by
  obtain ⟨before, after, rfl, hbefore, hafter⟩ := h
  have htaken : keepBetter better (bestOf better dy before start) q (dy q) = (dy q, q) :=
    if_pos (better_bestOf hstart hbefore)
  rw [bestOf, List.foldl_append, List.foldl_cons]
  exact (congrArg (bestOf better dy after) htaken).trans (bestOf_of_none_better hafter)

/-- The record is the start or the difference of one of the points. -/
theorem bestOf_cases (qs : List Point) (start : F64 × Point) :
    bestOf better dy qs start = start ∨ ∃ q ∈ qs, bestOf better dy qs start = (dy q, q) := by
  induction qs generalizing start with
  | nil => exact .inl rfl
  | cons q qs ih =>
    rcases ih (keepBetter better start q (dy q)) with hkept | ⟨r, hr, hrest⟩
    · by_cases hq : better (dy q) start.1 = true
      · exact .inr ⟨q, List.mem_cons_self, hkept.trans (if_pos hq)⟩
      · exact .inl (hkept.trans (if_neg hq))
    · exact .inr ⟨r, List.mem_cons_of_mem q hr, hrest⟩

end

/-- A record that has left +0.0 is the difference of a neighbour. -/
theorem bestOf_attained {better : F64 → F64 → Bool} {dy : Point → F64} {qs : List Point} {start : F64 × Point}
    (hstart : start.1 = cZero) (h : feq (bestOf better dy qs start).1 cZero = false) :
    (bestOf better dy qs start).2 ∈ qs ∧ dy (bestOf better dy qs start).2 = (bestOf better dy qs start).1 := by
  rcases bestOf_cases qs start with hkept | ⟨q, hq, htaken⟩
  · rw [hkept, hstart, feq_cZero_self] at h
    cases h
  · rw [htaken]
    exact ⟨hq, rfl⟩

/-! ### The loop in closed form (`42_neighborhood.md` R155, R156) -/

/-- The smallest difference and its point. -/
def Extrema.low (e : Extrema) : F64 × Point := (e.min, e.argmin)

/-- The largest difference and its point. -/
def Extrema.high (e : Extrema) : F64 × Point := (e.max, e.argmax)

/-- min is at most 0 and max at least 0, as at the start of the loop. -/
def Extrema.aroundZero (e : Extrema) : Prop := fle e.min cZero = true ∧ fle cZero e.max = true

/-- The flat count and the two records, given. -/
def extremaOf (flat : Nat) (low high : F64 × Point) : Extrema :=
  { flat := flat, min := low.1, max := high.1, argmin := low.2, argmax := high.2 }

/-- One neighbour with its difference, each part on its own and without the early return. -/
def extremaNext (e : Extrema) (q : Point) (d : F64) : Extrema :=
  extremaOf (e.flat + if feq d cZero then 1 else 0) (keepBetter flt e.low q d) (keepBetter fgt e.high q d)

/-- All the points qs with the differences dy. -/
def extremaOver (dy : Point → F64) (qs : List Point) (e : Extrema) : Extrema :=
  extremaOf (e.flat + qs.countP fun q => feq (dy q) cZero) (bestOf flt dy qs e.low) (bestOf fgt dy qs e.high)

theorem extremaOver_cons (dy : Point → F64) (q : Point) (qs : List Point) (e : Extrema) :
    extremaOver dy (q :: qs) e = extremaOver dy qs (extremaNext e q (dy q)) := by
  have hflat : e.flat + (q :: qs).countP (fun q => feq (dy q) cZero) =
      e.flat + (if feq (dy q) cZero then 1 else 0) + qs.countP (fun q => feq (dy q) cZero) := by
    rw [List.countP_cons, Nat.add_assoc, Nat.add_comm (qs.countP _)]
  exact congrArg (fun flat => extremaOf flat _ _) hflat

theorem extremaNext_eq (e : Extrema) (q : Point) (d : F64) :
    extremaNext e q d =
      { flat := e.flat + if feq d cZero then 1 else 0
        min := if flt d e.min then d else e.min
        max := if flt e.max d then d else e.max
        argmin := if flt d e.min then q else e.argmin
        argmax := if flt e.max d then q else e.argmax } := by
  rw [extremaNext, keepBetter_eq, keepBetter_eq]
  rfl

theorem Extrema.aroundZero.next {e : Extrema} (he : e.aroundZero) (q : Point) (d : F64) :
    (extremaNext e q d).aroundZero := by
  obtain ⟨hmin, hmax⟩ := he
  rw [extremaNext_eq]
  constructor
  · dsimp only
    split
    · exact fle_of_flt (flt_of_flt_of_fle ‹_› hmin)
    · exact hmin
  · dsimp only
    split
    · exact fle_of_flt (flt_of_fle_of_flt hmax ‹_›)
    · exact hmax

theorem extremaOver_aroundZero {e : Extrema} (he : e.aroundZero) (dy : Point → F64) (qs : List Point) :
    (extremaOver dy qs e).aroundZero := by
  induction qs generalizing e with
  | nil => exact he
  | cons q qs ih =>
    rw [extremaOver_cons]
    exact ih (he.next q (dy q))

/-- Around 0 a difference falls under one branch at most, so the order of the branches does not show. -/
theorem extremaStep_eq {e : Extrema} (he : e.aroundZero) (hflat : e.flat ≤ 2) (q : Point) (d : F64) :
    extremaStep e q d = if (extremaNext e q d).flat ≤ 2 then some (extremaNext e q d) else none := by
  by_cases hlow : flt d e.min = true
  · have hneg : flt d cZero = true := flt_of_flt_of_fle hlow he.1
    have hhigh : flt e.max d = false := flt_asymm (flt_of_flt_of_fle hneg he.2)
    simp [extremaStep, extremaNext_eq, feq_eq_false_of_flt hneg, hlow, hhigh, hflat]
  by_cases hhigh : flt e.max d = true
  · have hpos : flt cZero d = true := flt_of_fle_of_flt he.2 hhigh
    have hne : feq d cZero = false := (feq_comm d cZero).trans (feq_eq_false_of_flt hpos)
    simp [extremaStep, extremaNext_eq, hne, hlow, hhigh, hflat]
  cases hzero : feq d cZero with
  | true =>
    by_cases hroom : e.flat + 1 ≤ 2
    · simp [extremaStep, extremaNext_eq, hzero, hlow, hhigh, hroom, hroom.not_gt]
    · simp [extremaStep, extremaNext_eq, hzero, hlow, hhigh, hroom, not_le.1 hroom]
  | false => simp [extremaStep, extremaNext_eq, hzero, hlow, hhigh, hflat]

/-- Where the differences can be read, the loop answers the flat count and the two records, or returns early. -/
theorem extremaLoop_eq {s : State} {sel : Sel} {p : Point} {dy : Point → F64} {qs : List Point}
    (hread : ∀ q ∈ qs, delta s sel p sel q true = .ok (dy q)) {e : Extrema} (he : e.aroundZero) (hflat : e.flat ≤ 2) :
    extremaLoop s sel p qs e =
      .ok (if (extremaOver dy qs e).flat ≤ 2 then some (extremaOver dy qs e) else none) := by
  induction qs generalizing e with
  | nil => exact congrArg Except.ok (if_pos hflat).symm
  | cons q qs ih =>
    obtain ⟨hq, hqs⟩ := List.forall_mem_cons.1 hread
    rw [extremaLoop, hq, ok_bind, extremaStep_eq he hflat, extremaOver_cons]
    by_cases hnext : (extremaNext e q (dy q)).flat ≤ 2
    · rw [if_pos hnext]
      exact ih hqs (he.next q (dy q)) hnext
    · have hlater : ¬(extremaOver dy qs (extremaNext e q (dy q))).flat ≤ 2 :=
        fun h => hnext ((Nat.le_add_right _ _).trans h)
      rw [if_neg hnext, if_neg hlater]

/-- A loop without an early return has read the difference of every neighbour. -/
theorem readable_of_extremaLoop {s : State} {sel : Sel} {p : Point} {qs : List Point} {e e' : Extrema}
    (h : extremaLoop s sel p qs e = .ok (some e')) : ∀ q ∈ qs, ∃ d, delta s sel p sel q true = .ok d := by
  induction qs generalizing e with
  | nil => exact nofun
  | cons q qs ih =>
    obtain ⟨d, hd, hrest⟩ := (bind_ok_iff _ _ _).1 h
    cases hstep : extremaStep e q d with
    | none => rw [hstep] at hrest; cases hrest
    | some next =>
      rw [hstep] at hrest
      exact List.forall_mem_cons.2 ⟨⟨d, hd⟩, ih hrest⟩

/-! ### The verdict (`42_neighborhood.md` R157, R158) -/

theorem sameInBoth_of_true {s : State} {sa sb : Sel} {q : Point} (h : sameNeighbors s sa q 3 = .ok true) :
    sameInBoth s sa sb q = sameNeighbors s sb q 3 := by
  rw [sameInBoth, aaSame, h, ok_bind, if_pos rfl]

theorem sameInBoth_of_false {s : State} {sa sb : Sel} {q : Point} (h : sameNeighbors s sa q 3 = .ok false) :
    sameInBoth s sa sb q = .ok false := by
  rw [sameInBoth, aaSame, h, ok_bind, if_neg Bool.false_ne_true]

theorem sameInBoth_true_iff (s : State) (sa sb : Sel) (q : Point) :
    sameInBoth s sa sb q = .ok true ↔ sameNeighbors s sa q 3 = .ok true ∧ sameNeighbors s sb q 3 = .ok true := by
  constructor
  · intro h
    obtain ⟨inA, hA, hB⟩ := (bind_ok_iff _ _ _).1 h
    cases inA with
    | true => exact ⟨hA, hB⟩
    | false => cases hB
  · rintro ⟨hA, hB⟩
    rw [sameInBoth_of_true hA, hB]

/-- The two extrema asked in turn, the low one first. -/
def eitherExtremum (s : State) (sa sb : Sel) (lo hi : Point) : Except Fault Bool := do
  let low ← sameInBoth s sa sb lo
  if low then .ok true else sameInBoth s sa sb hi

theorem extremaVerdict_of_zero {s : State} {sa sb : Sel} {e : Extrema}
    (h : e.min = cZero ∨ e.max = cZero) : extremaVerdict s sa sb e = .ok false := by
  refine if_pos ?_
  rcases h with h | h <;> rw [h, feq_cZero_self]
  · rfl
  · exact Bool.or_true _

theorem extremaVerdict_of_ne_zero {s : State} {sa sb : Sel} {e : Extrema} (hmin : feq e.min cZero = false)
    (hmax : feq e.max cZero = false) : extremaVerdict s sa sb e = eitherExtremum s sa sb e.argmin e.argmax := by
  rw [extremaVerdict, hmin, hmax]
  rfl

theorem ne_zero_of_extremaVerdict {s : State} {sa sb : Sel} {e : Extrema} (h : extremaVerdict s sa sb e = .ok true) :
    feq e.min cZero = false ∧ feq e.max cZero = false := by
  rw [← Bool.or_eq_false_iff, Bool.eq_false_iff]
  intro hzero
  rw [extremaVerdict, if_pos hzero] at h
  cases h

theorem eitherExtremum_true {s : State} {sa sb : Sel} {lo hi : Point}
    (h : eitherExtremum s sa sb lo hi = .ok true) :
    sameInBoth s sa sb lo = .ok true ∨ sameInBoth s sa sb hi = .ok true := by
  obtain ⟨low, hlow, hrest⟩ := (bind_ok_iff _ _ _).1 h
  cases low with
  | true => exact .inl hlow
  | false => exact .inr hrest

/-! ### `antialiased` (`42_neighborhood.md` R155 to R158) -/

section
variable {s : State} {sa sb : Sel} {p : Point} {dy : Point → F64}

theorem extremaStart_aroundZero (d : Desc) (p : Point) : (extremaStart d p).aroundZero := by
  have hself : fle cZero cZero = true := (fle_iff _ _).2 ⟨isFinite_cZero.1, isFinite_cZero.1, le_rfl⟩
  exact ⟨hself, hself⟩

/-- The flat count and the extrema of the whole neighbourhood. -/
def extremaAround (d : Desc) (p : Point) (dy : Point → F64) : Extrema :=
  extremaOver dy (neighbours d p) (extremaStart d p)

theorem antialiased_eq (hread : ∀ q ∈ neighbours (s.desc sa) p, delta s sa p sa q true = .ok (dy q)) :
    antialiased s sa sb p =
      if bump (s.desc sa) p + (neighbours (s.desc sa) p).countP (fun q => feq (dy q) cZero) ≤ 2 then
        extremaVerdict s sa sb (extremaAround (s.desc sa) p dy) else .ok false := by
  have hstart : (extremaStart (s.desc sa) p).flat ≤ 2 := (bump_le_one _ p).trans (by decide)
  have hcount : (extremaAround (s.desc sa) p dy).flat =
    bump (s.desc sa) p + (neighbours (s.desc sa) p).countP (fun q => feq (dy q) cZero) := rfl
  rw [antialiased, extremaLoop_eq hread (extremaStart_aroundZero _ p) hstart, ok_bind, ← extremaAround, ← hcount]
  by_cases hfew : (extremaAround (s.desc sa) p dy).flat ≤ 2
  · rw [if_pos hfew, if_pos hfew]
  · rw [if_neg hfew, if_neg hfew]

theorem exists_differences_of_antialiased (h : antialiased s sa sb p = .ok true) :
    ∃ dy : Point → F64, ∀ q ∈ neighbours (s.desc sa) p, delta s sa p sa q true = .ok (dy q) := by
  obtain ⟨r, hr, hverdict⟩ := (bind_ok_iff _ _ _).1 h
  cases r with
  | none => cases hverdict
  | some e =>
    have hread := readable_of_extremaLoop hr
    choose! dy hdy using hread
    exact ⟨dy, hdy⟩

end

/-- Where the detector answers true, its records have left +0.0 on both sides. -/
theorem extrema_of_antialiased {s : State} {sa sb : Sel} {p : Point} {dy : Point → F64}
    (hread : ∀ q ∈ neighbours (s.desc sa) p, delta s sa p sa q true = .ok (dy q))
    (h : antialiased s sa sb p = .ok true) :
    ∃ lo hi, lo ∈ neighbours (s.desc sa) p ∧ hi ∈ neighbours (s.desc sa) p ∧
      flt (dy lo) cZero = true ∧ flt cZero (dy hi) = true ∧
      (sameInBoth s sa sb lo = .ok true ∨ sameInBoth s sa sb hi = .ok true) := by
  rw [antialiased_eq hread] at h
  split at h
  case isFalse => cases h
  case isTrue =>
    obtain ⟨hmin, hmax⟩ := ne_zero_of_extremaVerdict h
    rw [extremaVerdict_of_ne_zero hmin hmax] at h
    obtain ⟨hle, hge⟩ := extremaOver_aroundZero (extremaStart_aroundZero (s.desc sa) p) dy (neighbours (s.desc sa) p)
    obtain ⟨hlo, hdlo⟩ := bestOf_attained (better := flt) rfl hmin
    obtain ⟨hhi, hdhi⟩ := bestOf_attained (better := fgt) rfl hmax
    exact ⟨_, _, hlo, hhi, hdlo ▸ flt_of_fle_of_not_feq hle hmin,
      hdhi ▸ flt_of_fle_of_not_feq hge ((feq_comm _ _).trans hmax), eitherExtremum_true h⟩

/-- The two records of the loop are the first-visited extrema. -/
theorem antialiased_of_extrema {s : State} {sa sb : Sel} {p lo hi : Point} {dy : Point → F64}
    (hread : ∀ q ∈ neighbours (s.desc sa) p, delta s sa p sa q true = .ok (dy q))
    (hfew : bump (s.desc sa) p + (neighbours (s.desc sa) p).countP (fun q => feq (dy q) cZero) ≤ 2)
    (hlo : firstSmallest dy (neighbours (s.desc sa) p) lo) (hneg : flt (dy lo) cZero = true)
    (hhi : firstLargest dy (neighbours (s.desc sa) p) hi) (hpos : flt cZero (dy hi) = true) :
    antialiased s sa sb p = eitherExtremum s sa sb lo hi := by
  have hlow : (extremaAround (s.desc sa) p dy).low = (dy lo, lo) :=
    bestOf_firstBest ((firstSmallest_iff ..).1 hlo) hneg
  have hhigh : (extremaAround (s.desc sa) p dy).high = (dy hi, hi) :=
    bestOf_firstBest ((firstLargest_iff ..).1 hhi) hpos
  obtain ⟨hmin, hargmin⟩ := Prod.mk.inj hlow
  obtain ⟨hmax, hargmax⟩ := Prod.mk.inj hhigh
  rw [antialiased_eq hread, if_pos hfew, extremaVerdict_of_ne_zero, hargmin, hargmax]
  · rw [hmin]
    exact feq_eq_false_of_flt hneg
  · rw [hmax, feq_comm]
    exact feq_eq_false_of_flt hpos

/-- Settles O41: beyond two flat neighbours the loop returns early, and without a darker or a brighter one its record
stays at +0.0. -/
theorem antialiasedIsFalseWhenFlatOrOneSided : Obligations.AntialiasedIsFalseWhenFlatOrOneSided := by
  intro s sa sb p dy hread hcases
  rw [antialiased_eq hread]
  split
  case isFalse => rfl
  case isTrue hfew =>
    rcases hcases with hflat | hdark | hbright
    · omega
    · exact extremaVerdict_of_zero (.inl (congrArg Prod.fst (bestOf_of_none_better hdark)))
    · exact extremaVerdict_of_zero (.inr (congrArg Prod.fst (bestOf_of_none_better hbright)))

/-- Settles O42: a true answer comes from records that have left +0.0, and given extrema are the loop's records. -/
theorem antialiasedNeedsTwoExtrema : Obligations.AntialiasedNeedsTwoExtrema := by
  refine ⟨fun s sa sb p h => ?_, fun s sa sb p lo hi dy hread hfew hlo hneg hhi hpos => ?_⟩
  · obtain ⟨dy, hread⟩ := exists_differences_of_antialiased h
    obtain ⟨lo, hi, hlo, hhi, hneg, hpos, hsame⟩ := extrema_of_antialiased hread h
    rw [sameInBoth_true_iff, sameInBoth_true_iff] at hsame
    exact ⟨lo, hi, dy lo, dy hi, hlo, hhi, hread lo hlo, hread hi hhi, hneg, hpos, hsame⟩
  · rw [antialiased_of_extrema hread hfew hlo hneg hhi hpos]
    refine ⟨fun hA hB => ?_, fun hlow => ?_⟩
    · rw [eitherExtremum, sameInBoth_of_true hA, hB, ok_bind, if_pos rfl]
    · have hfails : sameInBoth s sa sb lo = .ok false := by
        rcases hlow with hA | ⟨hA, hB⟩
        · exact sameInBoth_of_false hA
        · rw [sameInBoth_of_true hA, hB]
      rw [eitherExtremum, hfails, ok_bind, if_neg Bool.false_ne_true]
      refine ⟨fun v hA hB => ?_, sameInBoth_of_false⟩
      rw [sameInBoth_of_true hA, hB]

/-! ### AA (`42_neighborhood.md` R160) -/

/-- Settles O43. -/
theorem aaWritesTheVerdict : Obligations.AaWritesTheVerdict := by
  refine ⟨fun s1 s2 => ?_, ?_⟩
  · exact (decodeInvertsEncode _ _).2 ⟨rfl, by cases s1 <;> cases s2 <;> rfl⟩
  rintro s s1 s2 _ hs rfl
  rw [← bufSet_eq]
  exact ⟨fun v hpre hv => resBool_of_answer hpre hv,
    fun e he => ⟨_, behindGates_some he s _, refusedWith_raiseError hs e⟩⟩

end Sys2Proof.Machine
end

section
/-! POS, DIMEQ and CMP up to its scan (O21, O23, O46, O47, O48): the document's gates, the identity gate, and what a scan
finds when it starts. -/

namespace Sys2Proof.Machine

/-! ### POS (`43_compare.md` R170) -/

/-- A forbidden access does not reach RESP (`70_reset_and_hazards.md` R240). -/
@[simp] theorem complete_resp (e : Option CmdError) (s : State) : (complete e s).res.resp = s.res.resp := by
  unfold complete
  split <;> rfl

theorem exec_pos_of_precheck {s : State} {sel : Sel} (h : precheck s (oneBufferChecks sel) = none) :
    exec (.pos sel) s = .next (succeed { s with
      res := { s.res with resp := BitVec.ofNat 40 (pixelOffset (s.desc sel) s.ptP.point) } }) :=
  behindGates_none h s _

/-- Past the precheck the offset fits RESP, since the pixel lies below LEN (`20_memory.md` R78). -/
theorem pixelOffset_lt_of_precheck {s : State} {sel : Sel} (h : precheck s (oneBufferChecks sel) = none) :
    pixelOffset (s.desc sel) s.ptP.point < 2 ^ 40 := by
  obtain ⟨hv, _, _⟩ := valid_of_precheck_eq_none h (List.mem_singleton_self sel)
  have hp := (pointCheck_some_eq_none_iff ..).1 (checks_of_precheck_eq_none h).2.1
  exact Nat.lt_of_le_of_lt ((Nat.le_add_right _ _).trans (pixelEnd_le_length hv hp)) (s.desc sel).len.isLt

/-- Settles O21. -/
theorem posWritesTheOffset : Obligations.PosWritesTheOffset := by
  refine ⟨fun sel => by cases sel <;> decide, fun s sel hs => ⟨fun hpre => ?_, fun e he => ?_⟩⟩
  · refine ⟨_, exec_pos_of_precheck hpre, ended_complete _ _, ?_⟩
    rw [succeed_eq, complete_resp, BitVec.toNat_ofNat, Nat.mod_eq_of_lt (pixelOffset_lt_of_precheck hpre)]
    rfl
  · exact ⟨_, behindGates_some he s _, refusedWith_raiseError hs e⟩

/-! ### Equal rectangles and DIMEQ (`60_exceptions.md` R203, `43_compare.md` R173) -/

theorem sameDims_iff (d e : Desc) : sameDims d e = true ↔ d.w = e.w ∧ d.h = e.h := by
  unfold sameDims
  rw [Bool.and_eq_true, decide_eq_true_eq, decide_eq_true_eq]
  exact and_congr BitVec.toNat_inj BitVec.toNat_inj

/-- Settles O23. -/
theorem dimeqComparesDimensions : Obligations.DimeqComparesDimensions := by
  refine ⟨by decide, fun s => ⟨_, rfl, ended_complete _ _, ?_⟩⟩
  rw [succeed_eq, complete_resBool]
  exact sameDims_iff _ _

/-! ### The document's gates of CMP (`43_compare.md` R181, R182) -/

theorem Desc.empty_iff (d : Desc) : d.empty = true ↔ d.w = 0#16 ∨ d.h = 0#16 := by
  unfold Desc.empty
  rw [Bool.or_eq_true, decide_eq_true_eq, decide_eq_true_eq]
  exact or_congr (BitVec.toNat_inj (y := 0#16)) (BitVec.toNat_inj (y := 0#16))

/-- Emptiness is asked of both buffers before the dimensions are compared. -/
theorem documentGates_cmp (s : State) :
    documentGates s cmpChecks =
      if s.descA.empty || s.descB.empty then some .emptyImage
      else if sameDims s.descA s.descB then none else some .dimensionsMismatch := by
  have hdims : dimsCheck s cmpChecks =
      if sameDims s.descA s.descB then none else some .dimensionsMismatch := by
    unfold dimsCheck
    cases sameDims s.descA s.descB <;> rfl
  have ha : emptyCheck s .a = if s.descA.empty then some .emptyImage else none := rfl
  have hb : emptyCheck s .b = if s.descB.empty then some .emptyImage else none := rfl
  rw [documentGates, hdims, cmpChecks, List.findSome?_cons, List.findSome?_cons, List.findSome?_nil, ha, hb]
  cases s.descA.empty <;> cases s.descB.empty <;> rfl

theorem exec_cmp_of_documentGate {s : State} {e : CmdError} (h : documentGates s cmpChecks = some e) :
    exec .cmp s = .next (raiseError e s) :=
  behindGates_some h s _

/-- Settles O46. -/
theorem cmpDocumentGates : Obligations.CmpDocumentGates := by
  intro s hs
  refine ⟨fun hempty => ?_, fun haw hah hbw hbh hdims => ?_⟩
  · have hgate : documentGates s cmpChecks = some .emptyImage := by
      rw [documentGates_cmp, if_pos]
      rwa [Bool.or_eq_true, Desc.empty_iff, Desc.empty_iff, or_assoc]
    exact ⟨_, exec_cmp_of_documentGate hgate, refusedWith_raiseError hs _⟩
  · have hgate : documentGates s cmpChecks = some .dimensionsMismatch := by
      rw [documentGates_cmp, if_neg, if_neg]
      · rw [sameDims_iff, not_and_or]
        exact hdims
      · rw [Bool.or_eq_true, Desc.empty_iff, Desc.empty_iff]
        tauto
    exact ⟨_, exec_cmp_of_documentGate hgate, refusedWith_raiseError hs _⟩

/-! ### The identity gate (`43_compare.md` R183) -/

/-- What CMP does past the document's gates, once the identity gate has its answer. -/
theorem exec_cmp_of_identical {s : State} {same : Bool} (hgates : documentGates s cmpChecks = none)
    (h : identicalBytes s = .ok same) :
    exec .cmp s = .next (if same then identityEnd s else cmpPastIdentity s) := by
  have hbody : exec .cmp s = settle (identicalBytes s >>= fun same =>
      if same then .ok (identityEnd s) else .ok (cmpPastIdentity s)) := behindGates_none hgates s _
  rw [hbody, h]
  cases same <;> rfl

/-- Without a forbidden access the fast path shows in COUNT and STATUS alone. -/
theorem identityEnd_untouched {s : State} (hs : s.touched = false) :
    identityEnd s = finish none { s with
      res := { s.res with count := 0#32 }, status := { s.status with outValid := false } } :=
  complete_untouched none hs

/-- Settles O47. -/
theorem cmpIdentityFastPath : Obligations.CmpIdentityFastPath := by
  intro s hs haw hah hbw hbh hlen hbytes
  have hgates : documentGates s cmpChecks = none := by
    rw [documentGates_cmp, if_neg, if_pos ((sameDims_iff _ _).2 ⟨hbw.symm, hbh.symm⟩)]
    rw [Bool.or_eq_true, Desc.empty_iff, Desc.empty_iff, hbw, hbh]
    tauto
  have hident : identicalBytes s = .ok true := by
    obtain ⟨same, hsame, hiff⟩ := identicalBytes_of_written (s := s) fun _ k hk =>
      (hbytes k hk).elim fun v hv => ⟨⟨v, hv.1⟩, v, hv.2⟩
    rw [hsame, hiff.2 ⟨hlen.symm, fun k hk => (hbytes k hk).elim fun v hv => hv.1.trans hv.2.symm⟩]
  have hstep : exec .cmp s = .next (identityEnd s) := exec_cmp_of_identical hgates hident
  refine ⟨_, hstep, ended_complete _ _, ?_⟩
  rw [identityEnd_untouched hs]
  exact ⟨rfl, rfl, rfl, rfl, rfl, ⟨rfl, rfl, rfl, rfl, rfl, rfl⟩, rfl, rfl, rfl⟩

/-! ### The start of the scan (`43_compare.md` R184 to R186) -/

theorem cmpPastIdentity_of_error {s : State} {e : CmdError} (h : hardwareGates s cmpChecks = some e) :
    cmpPastIdentity s = raiseError e s := by
  rw [cmpPastIdentity, h]

theorem cmpPastIdentity_of_pass {s : State} (h : hardwareGates s cmpChecks = none) :
    cmpPastIdentity s = startScan s := by
  rw [cmpPastIdentity, h]

/-- The bytes of the image are 0 when an output is requested, and no other byte changes (`20_memory.md` R71). -/
theorem readByte_out_zeroFill (s : State) (k : Nat) :
    readByte (zeroFill s).mem .out k =
      if s.opts.flags.outputEn = true ∧ k < outBytes s then some 0#8 else readByte s.mem .out k := by
  unfold zeroFill
  cases s.opts.flags.outputEn with
  | true =>
    simp only [if_true, true_and]
    exact cellGet_fillBytes ..
  | false => rfl

theorem readByte_out_startScan (s : State) (k : Nat) :
    readByte (startScan s).mem .out k =
      if s.opts.flags.outputEn = true ∧ k < outBytes s then some 0#8 else readByte s.mem .out k :=
  readByte_out_zeroFill { withMaxDelta s with engine := .scanning, scan := Scan.clear } k

/-- Settles O48. -/
theorem cmpStartsItsScan : Obligations.CmpStartsItsScan := by
  intro s hs hgates hident
  have hpre : precheck s cmpChecks = hardwareGates s cmpChecks := by rw [precheck, hgates, Option.none_or]
  have hstep : exec .cmp s = .next (cmpPastIdentity s) := exec_cmp_of_identical hgates hident
  refine ⟨fun e he => ?_, fun hnone => ?_⟩
  · rw [cmpPastIdentity_of_error (hpre.symm.trans he)] at hstep
    exact ⟨_, hstep, refusedWith_raiseError hs e⟩
  · rw [cmpPastIdentity_of_pass (hpre.symm.trans hnone)] at hstep
    obtain ⟨hops, hcells⟩ := keepsInputs_startScan s
    exact ⟨_, hstep, startScan_engine s, startScan_res s, by rw [startScan_scan]; rfl,
      lane_of_scan_clear (startScan_scan s), readByte_out_startScan s, hcells, hops,
      ⟨startScan_inbox s, startScan_hostData s, startScan_freeCtr s⟩, startScan_status s⟩

end Sys2Proof.Machine
end

section
/-! The lane table as a whole: sums over the listed lanes, which of them are active, and the step the scan takes next.
The join (O50). -/

namespace Sys2Proof.Machine

/-! ### Sums over the lanes (`43_compare.md` R188, R189) -/

/-- The sum of a quantity over the listed lanes. -/
def laneSum (f : Lane → Nat) (t : LaneTable) : Nat := (t.map (fun e => f e.2)).sum

theorem tallySum_eq_laneSum (t : LaneTable) : tallySum t = laneSum Lane.tally t := rfl

theorem laneSum_cons (f : Lane → Nat) (i : Nat) (l : Lane) (t : LaneTable) :
    laneSum f ((i, l) :: t) = f l + laneSum f t := by
  rw [laneSum, List.map_cons, List.sum_cons, laneSum]

theorem laneGet_cons_self (i : Nat) (l : Lane) (t : LaneTable) : laneGet ((i, l) :: t) i = l := by
  rw [laneGet, cellGet_cons, if_pos rfl, Option.getD_some]

theorem laneGet_cons_of_ne {i k : Nat} (h : k ≠ i) (l : Lane) (t : LaneTable) :
    laneGet ((k, l) :: t) i = laneGet t i := by
  rw [laneGet, cellGet_cons, if_neg h, laneGet]

theorem laneGet_below {size low i : Nat} {t : LaneTable} (ht : cellsWithin size low t = true) (h : i < low) :
    laneGet t i = Lane.clear := by
  rw [laneGet, cellGet_below ht h, Option.getD_none]

section
variable {f : Lane → Nat} {size low : Nat} {t : LaneTable}

theorem laneSum_cellPut (hf : f Lane.clear = 0) (ht : cellsWithin size low t = true) (i : Nat) (l : Lane) :
    laneSum f (cellPut t i l) + f (laneGet t i) = laneSum f t + f l := by
  induction t generalizing low with
  | nil => simp [cellPut, laneSum, laneGet, hf]
  | cons e t ih =>
    obtain ⟨k, u⟩ := e
    obtain ⟨_, _, hrest⟩ := (cellsWithin_cons ..).1 ht
    unfold cellPut
    split
    · rw [laneGet_cons_of_ne (by omega), laneGet_below hrest (by omega), hf, laneSum_cons, Nat.add_zero, Nat.add_comm]
    · split
      · subst_vars
        rw [laneGet_cons_self, laneSum_cons, laneSum_cons]
        omega
      · have hput := ih hrest
        rw [laneGet_cons_of_ne (by omega), laneSum_cons, laneSum_cons]
        omega

theorem laneSum_cellErase (hf : f Lane.clear = 0) (ht : cellsWithin size low t = true) (i : Nat) :
    laneSum f (cellErase t i) + f (laneGet t i) = laneSum f t := by
  induction t generalizing low with
  | nil => simp [cellErase, laneSum, laneGet, hf]
  | cons e t ih =>
    obtain ⟨k, u⟩ := e
    obtain ⟨_, _, hrest⟩ := (cellsWithin_cons ..).1 ht
    unfold cellErase
    split
    · subst_vars
      rw [laneGet_cons_self, laneSum_cons, Nat.add_comm]
    · have herase := ih hrest
      rw [laneGet_cons_of_ne ‹_›, laneSum_cons, laneSum_cons]
      omega

/-- A write of lane i exchanges its share of the sum. -/
theorem laneSum_lanePut (hf : f Lane.clear = 0) (ht : cellsWithin size low t = true) (i : Nat) (l : Lane) :
    laneSum f (lanePut t i l) + f (laneGet t i) = laneSum f t + f l := by
  unfold lanePut
  split
  · subst_vars
    rw [laneSum_cellErase hf ht, hf, Nat.add_zero]
  · exact laneSum_cellPut hf ht i l

end

theorem cellsWithin_of_wf {t : LaneTable} (h : LaneTable.wf t = true) : cellsWithin Config.nLanes 0 t = true := by
  unfold LaneTable.wf at h
  exact (Bool.and_eq_true_iff.1 h).1

/-! ### Active lanes -/

theorem mem_of_cellGet {α : Type} {m : List (Nat × α)} {k : Nat} {v : α} (h : cellGet m k = some v) : (k, v) ∈ m := by
  induction m with
  | nil => cases h
  | cons e m ih =>
    obtain ⟨key, u⟩ := e
    rw [cellGet_cons] at h
    split at h
    · cases h
      subst_vars
      exact List.mem_cons_self
    · exact List.mem_cons_of_mem _ (ih h)

/-- A lane that is not listed is clear, so it is enough to look at the listed ones. -/
theorem lane_idle_of_listed {s : State} (h : ∀ e ∈ s.scan.lanes, e.2.active = false) (i : Nat) :
    (s.lane i).active = false := by
  unfold State.lane laneGet
  cases hget : cellGet s.scan.lanes i with
  | none => rfl
  | some l => exact h _ (mem_of_cellGet hget)

/-- In a canonical table a listed entry is the one its key reads. -/
theorem cellGet_of_mem {α : Type} {size low k : Nat} {m : List (Nat × α)} {v : α}
    (hm : cellsWithin size low m = true) (h : (k, v) ∈ m) : cellGet m k = some v ∧ low ≤ k := by
  induction m generalizing low with
  | nil => cases h
  | cons e m ih =>
    obtain ⟨hlow, _, hrest⟩ := (cellsWithin_cons ..).1 hm
    rcases List.mem_cons.1 h with rfl | h
    · exact ⟨by rw [cellGet_cons, if_pos rfl], hlow⟩
    · obtain ⟨hget, hk⟩ := ih hrest h
      exact ⟨by rw [cellGet_cons, if_neg (by omega), hget], by omega⟩

theorem active_of_firstActive {s : State} {i : Nat} (hwf : LaneTable.wf s.scan.lanes = true)
    (h : firstActive s.scan.lanes = some i) : (s.lane i).active = true := by
  obtain ⟨l, hl, hact⟩ := firstActive_some h
  rw [State.lane, laneGet, (cellGet_of_mem (cellsWithin_of_wf hwf) hl).1]
  exact hact

/-! ### The step the scan takes next (`43_compare.md` R191) -/

theorem canJoin_iff (s : State) :
    canJoin s = true ↔ s.descA.height ≤ s.scan.rowNext ∧ ∀ e ∈ s.scan.lanes, e.2.active = false := by
  simp [canJoin]

theorem firstActive_eq_none_of_canJoin {s : State} (h : canJoin s = true) : firstActive s.scan.lanes = none := by
  rw [firstActive_none_iff, List.any_eq_false]
  simpa using ((canJoin_iff s).1 h).2

theorem defaultScanStep_of_canJoin {s : State} (h : canJoin s = true) : defaultScanStep s = .ok (join s) := by
  have hd : ¬canDispatch s 0 = true := by
    have hrow := ((canJoin_iff s).1 h).1
    simp only [canDispatch, Bool.and_eq_true, decide_eq_true_eq]
    omega
  rw [defaultScanStep, firstActive_eq_none_of_canJoin h]
  exact if_neg hd

/-- Every step of the scan is the move of a lane that has one, or the join, or a choice that does nothing. -/
theorem scanStep_cases {s : State} (hwf : LaneTable.wf s.scan.lanes = true) (pick : Option Nat) :
    (∃ i, isLane i = true ∧ laneEnabled s i = true ∧ scanStep pick s = laneMove s i) ∨
    (canJoin s = true ∧ scanStep pick s = .ok (join s)) ∨ (pick ≠ none ∧ scanStep pick s = .ok s) := by
  cases pick with
  | some i =>
    rw [scanStep, chosenScanStep]
    by_cases hi : (isLane i && laneEnabled s i) = true
    · obtain ⟨hlane, hen⟩ := Bool.and_eq_true_iff.1 hi
      exact .inl ⟨i, hlane, hen, if_pos hi⟩
    · rw [if_neg hi]
      by_cases hj : canJoin s = true
      · exact .inr (.inl ⟨hj, if_pos hj⟩)
      · exact .inr (.inr ⟨nofun, if_neg hj⟩)
  | none =>
    rw [scanStep]
    cases hfirst : firstActive s.scan.lanes with
    | some i =>
      refine .inl ⟨i, isLane_of_firstActive hwf hfirst, laneEnabled_of_active (active_of_firstActive hwf hfirst), ?_⟩
      rw [defaultScanStep, hfirst]
    | none =>
      have hidle : ∀ e ∈ s.scan.lanes, e.2.active = false := by
        simpa using List.any_eq_false.1 ((firstActive_none_iff _).1 hfirst)
      by_cases hrow : s.scan.rowNext < s.descA.height
      · have hfree := lane_idle_of_listed hidle 0
        refine .inl ⟨0, rfl, laneEnabled_of_free hfree hrow, ?_⟩
        rw [defaultScanStep, hfirst, laneMove_of_free hfree hrow]
        exact if_pos (by simp [canDispatch, hfree, hrow])
      · have hj : canJoin s = true := (canJoin_iff s).2 ⟨by omega, hidle⟩
        exact .inr (.inl ⟨hj, defaultScanStep_of_canJoin hj⟩)

/-! ### The join (`43_compare.md` R189) -/

theorem pdeStep_scanning {s : State} (pick : Option Nat) (he : s.engine = .scanning) :
    pdeStep pick s = settle (scanStep pick s) := by
  unfold pdeStep
  rw [he]

/-- Without a forbidden access the join shows in COUNT and STATUS alone. -/
theorem join_untouched {s : State} (hs : s.touched = false) :
    join s = finish none { s with
      res := { s.res with count := BitVec.ofNat 32 (tallySum s.scan.lanes) }
      status := { s.status with outValid := s.opts.flags.outputEn } } :=
  complete_untouched none hs

/-- Settles O50: with no event to come the default step is the join. -/
theorem joinCompletesTheComparison : Obligations.JoinCompletesTheComparison := by
  intro s he hs hrow hidle hin
  have hstep : step s = .next (join s) := by
    rw [step_noEvent hin, pdeStep_scanning none he, scanStep,
      defaultScanStep_of_canJoin ((canJoin_iff s).2 ⟨hrow.ge, hidle⟩), settle_ok]
  refine ⟨_, hstep, ended_complete _ _, ?_⟩
  rw [join_untouched hs]
  exact ⟨rfl, rfl, rfl, rfl, rfl, rfl, rfl, rfl, rfl⟩

end Sys2Proof.Machine
end

section
/-! The invariant of a scan (for O51, O52), for every order of the lanes. `ScanProgress`: the pixels judged so far, in
whatever order, are those the scan position says, the tallies count the DIFFERENT among them, and their bytes of OUT are
rendered. Each step of a lane keeps it. -/

namespace Sys2Proof.Machine

/-! ### The pixels of the image and the bytes of OUT (`20_memory.md` R52) -/

theorem mem_imagePoints_iff (s : State) (p : Point) : p ∈ imagePoints s ↔ s.descA.inside p = true := by
  obtain ⟨x, y⟩ := p
  simp only [imagePoints, List.mem_flatMap, List.mem_map, List.mem_range, Point.mk.injEq, Desc.inside_iff]
  constructor
  · rintro ⟨_, hy, _, hx, rfl, rfl⟩
    exact ⟨hx, hy⟩
  · rintro ⟨hx, hy⟩
    exact ⟨y, hy, x, hx, rfl, rfl⟩

theorem imagePoints_nodup (s : State) : (imagePoints s).Nodup := by
  refine List.nodup_flatMap.2 ⟨fun y _ => List.nodup_range.map fun x x' h => (Point.mk.inj h).1, ?_⟩
  refine List.nodup_range.imp fun hne => ?_
  simp only [Function.onFun, List.disjoint_left, List.mem_map, not_exists, not_and]
  rintro _ ⟨x, _, rfl⟩ x' _ h
  exact hne (Point.mk.inj h).2.symm

theorem length_imagePoints (s : State) : (imagePoints s).length = s.descA.height * s.descA.width := by
  simp [imagePoints, List.length_flatMap]

/-- COUNT loses no bit (`20_memory.md` R79). -/
theorem differentCount_lt (s : State) : differentCount s < 2 ^ 32 := by
  have hcount : differentCount s ≤ s.descA.height * s.descA.width :=
    length_imagePoints s ▸ List.countP_le_length
  have hsize : s.descA.height * s.descA.width ≤ (2 ^ 16 - 1) * (2 ^ 16 - 1) :=
    Nat.mul_le_mul (Nat.le_sub_one_of_lt s.descA.h.isLt) (Nat.le_sub_one_of_lt s.descA.w.isLt)
  omega

/-- The bytes of OUT that belong to a pixel are the four from its offset on. -/
theorem outPixel_eq_iff {s : State} {p : Point} (hx : p.x < s.descA.width) (k : Nat) :
    outPixel s k = p ↔ outOffset s p ≤ k ∧ k < outOffset s p + 4 := by
  obtain ⟨x, y⟩ := p
  have hdiv := Nat.div_mod_unique (a := k / 4) (b := s.descA.width) (c := x) (d := y) (Nat.zero_lt_of_lt hx)
  rw [outPixel, Point.mk.injEq, and_comm, hdiv, and_iff_left hx, outOffset, Nat.mul_comm s.descA.width]
  dsimp only
  omega

theorem inside_outPixel {s : State} {k : Nat} (hk : k < outBytes s) : s.descA.inside (outPixel s k) = true := by
  have hpix : k / 4 < s.descA.width * s.descA.height := Nat.div_lt_of_lt_mul hk
  refine (Desc.inside_iff ..).2 ⟨Nat.mod_lt _ ?_, Nat.div_lt_of_lt_mul hpix⟩
  exact Nat.pos_of_mul_pos_right (Nat.zero_lt_of_lt hpix)

/-! ### What the scan of a comparison begins with (`43_compare.md` R186) -/

/-- A state in which CMP begins its scan: no lane has moved, no host access has marked the command, the image's bytes of
OUT are 0 if an output is requested, and every pixel can be judged. -/
structure ScanStart (s : State) : Prop where
  engine : s.engine = .scanning
  untouched : s.touched = false
  scan : s.scan = Scan.clear
  zeroed : s.opts.flags.outputEn = true → ∀ k, k < outBytes s → readByte s.mem .out k = some 0#8
  judgeable : judgeable s

/-- A CMP that goes on to a scan has done its step 4. -/
theorem eq_startScan_of_exec {s0 s : State} (h : exec .cmp s0 = .next s) (he : s.engine = .scanning) :
    s = startScan s0 := by
  rcases execCmp_next_cases h with ⟨e, _, rfl⟩ | ⟨_, _, rfl⟩ | ⟨_, _, e, _, rfl⟩ | ⟨_, _, _, h⟩
  · exact nomatch (complete_engine _ s0).symm.trans he
  · exact nomatch (complete_engine _ _).symm.trans he
  · exact nomatch (complete_engine _ s0).symm.trans he
  · exact h

theorem ScanStart.of_startScan {s : State} (hs : s.touched = false) (hj : Machine.judgeable (startScan s)) :
    ScanStart (startScan s) := by
  refine ⟨startScan_engine s, (startScan_touched s).trans hs, startScan_scan s, fun hen k hk => ?_, hj⟩
  rw [startScan_opts] at hen
  rw [outBytes, startScan_descA] at hk
  rw [readByte_out_startScan, if_pos ⟨hen, hk⟩]

theorem outputEn_of_writesPixel {f : Flags} {c : PixelClass} (h : writesPixel f c = true) : f.outputEn = true := by
  rw [writesPixel_eq] at h
  exact (Bool.and_eq_true_iff.1 h).1

/-- A pixel is written only when an output is requested (`43_compare.md` R175). -/
theorem outputEn_of_judge {s : State} {p : Point} {v : Verdict} (h : judge s p = .ok v) (hwr : v.wr = true) :
    s.opts.flags.outputEn = true := by
  obtain ⟨⟨d, cls⟩, _, h⟩ := (bind_ok_iff _ _ _).1 h
  obtain ⟨col, _, h⟩ := (bind_ok_iff _ _ _).1 h
  cases h
  exact outputEn_of_writesPixel hwr

/-- The closed form of a byte of the image, by the verdict on its pixel: a pixel that is not written stays as the scan
found it. -/
theorem ScanStart.renderedByte_eq {s : State} (hs : ScanStart s) {k : Nat} {v : Verdict} (hk : k < outBytes s)
    (hv : judge s (outPixel s k) = .ok v) :
    renderedByte s k = if v.wr then (colorBytes v.col)[k % 4]? else readByte s.mem .out k := by
  unfold renderedByte
  by_cases hen : s.opts.flags.outputEn = true
  · rw [if_pos ⟨hen, hk⟩, hv, hs.zeroed hen k hk]
  · have hwr : ¬v.wr = true := fun hwr => hen (outputEn_of_judge hv hwr)
    rw [if_neg fun h => hen h.1, if_neg hwr]

/-! ### A state in the middle of a scan -/

/-- u is s but for the scan position, OUT and the events to come. -/
def sameButScan (s u : State) : Prop :=
  ∃ scan out inbox, u = { s with scan := scan, mem := { s.mem with out := out }, inbox := inbox }

theorem sameButScan_refl (s : State) : sameButScan s s := ⟨_, _, _, rfl⟩

theorem sameButScan_trans {s u v : State} (h : sameButScan s u) (k : sameButScan u v) : sameButScan s v := by
  obtain ⟨_, _, _, rfl⟩ := h
  obtain ⟨_, _, _, rfl⟩ := k
  exact ⟨_, _, _, rfl⟩

theorem sameButScan_setLane (s : State) (i : Nat) (l : Lane) : sameButScan s (setLane s i l) := ⟨_, _, _, rfl⟩

theorem sameButScan_dispatch (s : State) (i : Nat) : sameButScan s (dispatch s i) := ⟨_, _, _, rfl⟩

theorem sameButScan_applyVerdict (s : State) (i : Nat) (v : Verdict) : sameButScan s (applyVerdict s i v) := by
  unfold applyVerdict
  split
  · exact ⟨_, _, _, rfl⟩
  · exact sameButScan_setLane ..

theorem sameButScan.view {s u : State} (h : sameButScan s u) : SameView s u := by
  obtain ⟨_, _, _, rfl⟩ := h
  exact ⟨rfl, rfl, rfl, rfl, rfl, rfl, rfl, rfl⟩

/-- The lanes have judged p: its row is handed out, and a lane that is in it is past p. -/
def handled (u : State) (p : Point) : Prop :=
  u.descA.inside p = true ∧ p.y < u.scan.rowNext ∧
  ∀ i, (u.lane i).active = true → (u.lane i).y = p.y → p.x < (u.lane i).x

/-- The scan that began in s is at u, and the pixels it has judged are those of the list. -/
structure ScanProgress (s : State) (done : List Point) (u : State) : Prop where
  frame : sameButScan s u
  canonical : LaneTable.wf u.scan.lanes = true
  legal : scanLegal u
  nodup : done.Nodup
  mem_iff : ∀ p, p ∈ done ↔ handled u p
  tally : tallySum u.scan.lanes = done.countP (isDifferent s)
  out : ∀ k, readByte u.mem .out k = if outPixel s k ∈ done then renderedByte s k else readByte s.mem .out k

theorem ScanStart.progress {s : State} (hs : ScanStart s) : ScanProgress s [] s := by
  refine ⟨sameButScan_refl s, ?_, scanLegal_clear hs.scan, List.nodup_nil, fun p => ?_, ?_, fun k => ?_⟩
  · rw [hs.scan]
    rfl
  · unfold handled
    rw [hs.scan]
    simp [Scan.clear]
  · rw [hs.scan]
    rfl
  · rw [if_neg List.not_mem_nil]

theorem ScanProgress.withInbox {s u : State} {done : List Point} (h : ScanProgress s done u) (es : List Event) :
    ScanProgress s done { u with inbox := es } := by
  obtain ⟨frame, canonical, legal, nodup, mem_iff, tally, out⟩ := h
  exact ⟨sameButScan_trans frame ⟨_, _, _, rfl⟩, canonical, legal, nodup, mem_iff, tally, out⟩

/-! ### How the judged pixels change -/

section
variable {s : State} {i : Nat} (hwf : LaneTable.wf s.scan.lanes = true)
include hwf

/-- The row of a DISPATCH is handed out with none of its pixels judged. -/
theorem handled_dispatch (hact : (s.lane i).active = false) (p : Point) :
    handled (dispatch s i) p ↔ handled s p := by
  have hlane : ∀ j, (dispatch s i).lane j =
      if j = i then { s.lane i with active := true, y := s.scan.rowNext, x := 0 } else s.lane j :=
    fun j => lane_setLane hwf i j _
  have hrow : (dispatch s i).scan.rowNext = s.scan.rowNext + 1 := rfl
  unfold handled
  rw [dispatch_descA, hrow]
  refine and_congr_right fun _ => ⟨fun ⟨hy, hpast⟩ => ?_, fun ⟨hy, hpast⟩ => ⟨by omega, fun j => ?_⟩⟩
  · have hi := hpast i
    rw [hlane, if_pos rfl] at hi
    refine ⟨Nat.lt_of_le_of_ne (Nat.le_of_lt_succ hy) fun h => absurd (hi rfl h.symm) (Nat.not_lt_zero _), fun j => ?_⟩
    intro hj
    have hne : j ≠ i := by
      rintro rfl
      rw [hact] at hj
      cases hj
    have hother := hpast j
    rw [hlane, if_neg hne] at hother
    exact hother hj
  · rw [hlane]
    split
    · exact fun _ h => absurd h hy.ne'
    · exact hpast j

/-- A RETIRE comes when every pixel of the row is judged. -/
theorem handled_retire (hx : (s.lane i).x = s.descA.width) (p : Point) : handled (retire s i) p ↔ handled s p := by
  have hlane : ∀ j, (retire s i).lane j = if j = i then { s.lane i with active := false } else s.lane j :=
    fun j => lane_setLane hwf i j _
  have hrow : (retire s i).scan.rowNext = s.scan.rowNext := rfl
  unfold handled
  rw [retire_descA, hrow]
  refine and_congr_right fun hin => and_congr_right fun _ => forall_congr' fun j => ?_
  rw [hlane]
  split
  · subst_vars
    rw [hx]
    exact ⟨fun _ _ _ => ((Desc.inside_iff ..).1 hin).1, fun _ h => nomatch h⟩
  · rfl

/-- A PIXELSTEP judges the pixel its lane is at, which no other lane is in the row of. -/
theorem handled_applyVerdict (hlegal : scanLegal s) (hstep : canPixelStep s i = true) (v : Verdict) (p : Point) :
    handled (applyVerdict s i v) p ↔ p = lanePoint (s.lane i) ∨ handled s p := by
  have hinside := inside_of_canPixelStep hlegal hstep
  obtain ⟨hact, _⟩ := Bool.and_eq_true_iff.1 hstep
  obtain ⟨_, hin, huniq⟩ := hlegal
  have hlane := fun j => lane_applyVerdict hwf i j v
  unfold handled
  rw [applyVerdict_descA, applyVerdict_rowNext]
  constructor
  · rintro ⟨hp, hy, hpast⟩
    by_cases hat : p = lanePoint (s.lane i)
    · exact .inl hat
    · refine .inr ⟨hp, hy, fun j hj hrow => ?_⟩
      have hlater := hpast j
      rw [hlane] at hlater
      split at hlater
      · subst_vars
        have hle : p.x < (s.lane j).x + 1 := hlater hj hrow
        have hne : p.x ≠ (s.lane j).x := by
          rintro hx
          exact hat (by rw [lanePoint, hrow, ← hx])
        omega
      · exact hlater hj hrow
  · rintro (rfl | ⟨hp, hy, hpast⟩)
    · refine ⟨hinside, (hin i hact).1, fun j => ?_⟩
      rw [hlane]
      split
      · exact fun _ _ => Nat.lt_succ_self _
      · exact fun hj hrow => absurd (huniq j i hj hact hrow) ‹_›
    · refine ⟨hp, hy, fun j => ?_⟩
      rw [hlane]
      split
      · subst_vars
        exact fun _ hrow => Nat.lt_succ_of_lt (hpast j hact hrow)
      · exact hpast j

end

theorem not_handled_lanePoint {s : State} {i : Nat} (hact : (s.lane i).active = true) :
    ¬handled s (lanePoint (s.lane i)) :=
  fun ⟨_, _, hpast⟩ => absurd (hpast i hact rfl) (Nat.lt_irrefl _)

/-! ### The steps of the lanes keep the progress -/

section
variable {s u : State} {done : List Point} {i : Nat}

theorem ScanProgress.setLane_tally (h : ScanProgress s done u) (i : Nat) (l : Lane) :
    tallySum (lanePut u.scan.lanes i l) + (u.lane i).tally = done.countP (isDifferent s) + l.tally := by
  rw [← h.tally]
  exact laneSum_lanePut rfl (cellsWithin_of_wf h.canonical) i l

/-- A lane that keeps its tally keeps the sum. -/
theorem ScanProgress.tally_lanePut (h : ScanProgress s done u) {l : Lane} (hl : l.tally = (u.lane i).tally) :
    tallySum (lanePut u.scan.lanes i l) = done.countP (isDifferent s) :=
  Nat.add_right_cancel ((h.setLane_tally i l).trans (congrArg _ hl))

theorem ScanProgress.dispatch (h : ScanProgress s done u) (hi : isLane i = true)
    (hact : (u.lane i).active = false) (hrow : u.scan.rowNext < u.descA.height) :
    ScanProgress s done (dispatch u i) := by
  refine ⟨sameButScan_trans h.frame (sameButScan_dispatch u i), setLane_wf h.canonical hi,
    scanLegal_dispatch h.canonical h.legal (by simp [canDispatch, hact, hrow]), h.nodup, fun p => ?_, ?_, h.out⟩
  · rw [handled_dispatch h.canonical hact]
    exact h.mem_iff p
  · exact h.tally_lanePut (l := { u.lane i with active := true, y := u.scan.rowNext, x := 0 }) rfl

theorem ScanProgress.retire (h : ScanProgress s done u) (hi : isLane i = true)
    (hx : (u.lane i).x = u.descA.width) : ScanProgress s done (retire u i) := by
  refine ⟨sameButScan_trans h.frame (sameButScan_setLane u i _), setLane_wf h.canonical hi,
    scanLegal_retire h.canonical h.legal, h.nodup, fun p => ?_, ?_, h.out⟩
  · rw [handled_retire h.canonical hx]
    exact h.mem_iff p
  · exact h.tally_lanePut rfl

/-- The verdict on a pixel is the one the scan began with (`43_compare.md` R190). -/
theorem ScanProgress.judge (h : ScanProgress s done u) (p : Point) : Machine.judge u p = Machine.judge s p :=
  judge_congr h.frame.view p

theorem isDifferent_of_judge {p : Point} {v : Verdict} (hv : judge s p = .ok v) :
    isDifferent s p = decide (v.cls = .different) := by
  rw [isDifferent, hv]

theorem ScanProgress.lanePoint_not_mem (h : ScanProgress s done u) (hstep : canPixelStep u i = true) :
    lanePoint (u.lane i) ∉ done := fun hmem =>
  not_handled_lanePoint (Bool.and_eq_true_iff.1 hstep).1 ((h.mem_iff _).1 hmem)

/-- A PIXELSTEP renders the bytes of its own pixel and leaves all others. -/
theorem ScanProgress.out_applyVerdict (hs : ScanStart s) (h : ScanProgress s done u)
    (hstep : canPixelStep u i = true) {v : Verdict} (hv : Machine.judge s (lanePoint (u.lane i)) = .ok v) (k : Nat) :
    readByte (applyVerdict u i v).mem .out k =
      if outPixel s k ∈ lanePoint (u.lane i) :: done then renderedByte s k else readByte s.mem .out k := by
  have hdesc : u.descA = s.descA := h.frame.view.descA
  have hinside := inside_of_canPixelStep h.legal hstep
  rw [hdesc] at hinside
  have hrange := outPixel_eq_iff (s := s) ((Desc.inside_iff ..).1 hinside).1 k
  have hfresh := h.lanePoint_not_mem hstep
  have hoff : outOffset u (lanePoint (u.lane i)) = outOffset s (lanePoint (u.lane i)) := by
    rw [outOffset, hdesc, outOffset]
  rw [readByte_out_applyVerdict, hoff, h.out]
  by_cases hk : outPixel s k = lanePoint (u.lane i)
  · obtain ⟨hlow, hhigh⟩ := hrange.1 hk
    have hend := outOffset_add_four_le_outBytes hinside
    have hbyte : k - outOffset s (lanePoint (u.lane i)) = k % 4 := by
      unfold outOffset at hlow hhigh ⊢
      omega
    rw [hk, if_neg hfresh, if_pos List.mem_cons_self, hbyte, hs.renderedByte_eq (by omega) (hk ▸ hv)]
    simp only [hlow, hhigh, and_true]
  · have hmem : outPixel s k ∈ lanePoint (u.lane i) :: done ↔ outPixel s k ∈ done := by
      rw [List.mem_cons, or_iff_right hk]
    rw [if_neg fun hin => hk (hrange.2 hin.2)]
    simp only [hmem]

theorem ScanProgress.applyVerdict (hs : ScanStart s) (h : ScanProgress s done u) (hi : isLane i = true)
    (hstep : canPixelStep u i = true) {v : Verdict} (hv : Machine.judge s (lanePoint (u.lane i)) = .ok v) :
    ScanProgress s (lanePoint (u.lane i) :: done) (applyVerdict u i v) := by
  have hfresh := h.lanePoint_not_mem hstep
  refine ⟨sameButScan_trans h.frame (sameButScan_applyVerdict u i v), ?_,
    scanLegal_applyVerdict v h.canonical h.legal hstep, List.nodup_cons.2 ⟨hfresh, h.nodup⟩, fun p => ?_, ?_,
    h.out_applyVerdict hs hstep hv⟩
  · rw [applyVerdict_lanes]
    exact lanePut_wf _ h.canonical hi
  · rw [handled_applyVerdict h.canonical h.legal hstep, List.mem_cons, h.mem_iff]
  · have hsum := h.setLane_tally i (laneAfter (u.lane i) v.cls)
    rw [applyVerdict_lanes, List.countP_cons, isDifferent_of_judge hv]
    have htally : (laneAfter (u.lane i) v.cls).tally =
        if v.cls = .different then (u.lane i).tally + 1 else (u.lane i).tally := rfl
    rw [htally] at hsum
    by_cases hd : v.cls = .different
    · simp only [hd, if_true, decide_true] at hsum ⊢
      omega
    · simp only [hd, if_false, decide_false, Bool.false_eq_true] at hsum ⊢
      omega

end

end Sys2Proof.Machine
end

section
/-! The run of a comparison (O51, O52): every step of it ends it or leaves less to do, and keeps the progress from which
the join makes the result. Both statements are about that one step lemma, `comparing_step`. -/

namespace Sys2Proof.Machine

/-! ### The steps that are left -/

/-- How many steps an active lane still takes: the pixels of its row and the RETIRE. -/
def laneWork (w : Nat) (l : Lane) : Nat := if l.active then w - l.x + 1 else 0

/-- How many steps the scan still takes: each row to come its DISPATCH, its pixels and its RETIRE, then the lanes at
work, then the join. -/
def workLeft (s : State) : Nat :=
  (s.descA.height - s.scan.rowNext) * (s.descA.width + 2) + laneSum (laneWork s.descA.width) s.scan.lanes + 1

section
variable {s : State} {i : Nat} (hwf : LaneTable.wf s.scan.lanes = true)
include hwf

theorem laneWork_lanePut (l : Lane) :
    laneSum (laneWork s.descA.width) (lanePut s.scan.lanes i l) + laneWork s.descA.width (s.lane i) =
      laneSum (laneWork s.descA.width) s.scan.lanes + laneWork s.descA.width l :=
  laneSum_lanePut rfl (cellsWithin_of_wf hwf) i l

theorem workLeft_dispatch (hact : (s.lane i).active = false) (hrow : s.scan.rowNext < s.descA.height) :
    workLeft (dispatch s i) < workLeft s := by
  have hsum := laneWork_lanePut (i := i) hwf ⟨true, s.scan.rowNext, 0, (s.lane i).tally⟩
  have hold : laneWork s.descA.width (s.lane i) = 0 := by simp [laneWork, hact]
  have hnew : laneWork s.descA.width ⟨true, s.scan.rowNext, 0, (s.lane i).tally⟩ = s.descA.width + 1 := rfl
  have hrows : (s.descA.height - s.scan.rowNext) * (s.descA.width + 2) =
      (s.descA.height - (s.scan.rowNext + 1)) * (s.descA.width + 2) + (s.descA.width + 2) := by
    rw [← Nat.succ_mul]
    congr 1
    omega
  have hleft : workLeft (dispatch s i) = (s.descA.height - (s.scan.rowNext + 1)) * (s.descA.width + 2) +
      laneSum (laneWork s.descA.width) (lanePut s.scan.lanes i ⟨true, s.scan.rowNext, 0, (s.lane i).tally⟩) + 1 := rfl
  rw [hold, hnew] at hsum
  rw [hleft, workLeft, hrows]
  omega

theorem workLeft_setLane {l : Lane} (h : laneWork s.descA.width l < laneWork s.descA.width (s.lane i)) :
    workLeft (setLane s i l) < workLeft s := by
  have hsum := laneWork_lanePut (i := i) hwf l
  have hleft : workLeft (setLane s i l) = (s.descA.height - s.scan.rowNext) * (s.descA.width + 2) +
      laneSum (laneWork s.descA.width) (lanePut s.scan.lanes i l) + 1 := rfl
  rw [hleft, workLeft]
  omega

theorem workLeft_retire (hact : (s.lane i).active = true) : workLeft (retire s i) < workLeft s := by
  refine workLeft_setLane hwf ?_
  simp [laneWork, hact]

theorem workLeft_applyVerdict (hstep : canPixelStep s i = true) (v : Verdict) :
    workLeft (applyVerdict s i v) < workLeft s := by
  have hleft : workLeft (applyVerdict s i v) = workLeft (setLane s i (laneAfter (s.lane i) v.cls)) := by
    unfold workLeft
    rw [applyVerdict_descA, applyVerdict_rowNext, applyVerdict_lanes]
    rfl
  obtain ⟨hact, hx⟩ := Bool.and_eq_true_iff.1 hstep
  have hx := of_decide_eq_true hx
  rw [hleft]
  refine workLeft_setLane hwf ?_
  simp only [laneWork, laneAfter, hact, if_true]
  omega

end

/-! ### A step of the scan -/

section
variable {s u : State} {done : List Point}

/-- A lane that has a step to take takes it: no pixel stops it, and less is left to do. -/
theorem ScanProgress.laneMove (hs : ScanStart s) (h : ScanProgress s done u) {i : Nat} (hi : isLane i = true)
    (hen : laneEnabled u i = true) :
    ∃ done' u', laneMove u i = .ok u' ∧ ScanProgress s done' u' ∧ workLeft u' < workLeft u ∧ u'.inbox = u.inbox := by
  cases hact : (u.lane i).active with
  | false =>
    have hrow : u.scan.rowNext < u.descA.height := by simpa [laneEnabled, canDispatch, hact] using hen
    exact ⟨_, _, laneMove_of_free hact hrow, h.dispatch hi hact hrow, workLeft_dispatch h.canonical hact hrow, rfl⟩
  | true =>
    obtain ⟨_, hin, _⟩ := h.legal
    rcases Nat.lt_or_eq_of_le (hin i hact).2 with hx | hx
    · have hstep : canPixelStep u i = true := by simp [canPixelStep, hact, hx]
      have hinside := inside_of_canPixelStep h.legal hstep
      rw [h.frame.view.descA] at hinside
      obtain ⟨v, hv⟩ := hs.judgeable _ hinside
      exact ⟨_, _, laneMove_of_inRow hact hx ((h.judge _).trans hv), h.applyVerdict hs hi hstep hv,
        workLeft_applyVerdict h.canonical hstep v, applyVerdict_inbox ..⟩
    · exact ⟨_, _, laneMove_of_rowEnd hact hx, h.retire hi hx, workLeft_retire h.canonical hact, rfl⟩

/-- The result of the comparison whose scan began in s (`43_compare.md` R189, R190). -/
def compared (s t : State) : Prop :=
  ended t none ∧ t.res.count.toNat = differentCount s ∧ t.res = { s.res with count := t.res.count } ∧
  t.status.outValid = s.opts.flags.outputEn ∧ t.status.dropped = s.status.dropped ∧
  (∀ k, readByte t.mem .out k = renderedByte s k) ∧ keepsInputs s t

/-- When the join is made, the pixels judged are those of the image. -/
theorem ScanProgress.perm_imagePoints (h : ScanProgress s done u) (hj : canJoin u = true) :
    done.Perm (imagePoints s) := by
  obtain ⟨hrow, hidle⟩ := (canJoin_iff u).1 hj
  refine (List.perm_ext_iff_of_nodup h.nodup (imagePoints_nodup s)).2 fun p => ?_
  rw [h.mem_iff, mem_imagePoints_iff, ← h.frame.view.descA]
  refine ⟨fun hp => hp.1, fun hp => ⟨hp, ?_, fun i hi => ?_⟩⟩
  · exact Nat.lt_of_lt_of_le ((Desc.inside_iff ..).1 hp).2 hrow
  · rw [lane_idle_of_listed hidle i] at hi
    cases hi

theorem ScanProgress.readByte_out (h : ScanProgress s done u) (hj : canJoin u = true) (k : Nat) :
    readByte u.mem .out k = renderedByte s k := by
  rw [h.out]
  split
  · rfl
  · have hk : ¬k < outBytes s := fun hk =>
      ‹outPixel s k ∉ done› ((h.perm_imagePoints hj).mem_iff.2 ((mem_imagePoints_iff ..).2 (inside_outPixel hk)))
    rw [renderedByte, if_neg fun h => hk h.2]

theorem ScanProgress.tally_eq (h : ScanProgress s done u) (hj : canJoin u = true) :
    tallySum u.scan.lanes = differentCount s :=
  h.tally.trans ((h.perm_imagePoints hj).countP_eq _)

theorem ScanProgress.join (hs : ScanStart s) (h : ScanProgress s done u) (hj : canJoin u = true) :
    compared s (join u) := by
  have hout := h.readByte_out hj
  have hcount : (BitVec.ofNat 32 (tallySum u.scan.lanes)).toNat = differentCount s := by
    rw [h.tally_eq hj, BitVec.toNat_ofNat, Nat.mod_eq_of_lt (differentCount_lt s)]
  have hu : u.touched = false := by
    obtain ⟨_, _, _, rfl⟩ := h.frame
    exact hs.untouched
  refine ⟨ended_complete _ _, ?_⟩
  rw [join_untouched hu]
  obtain ⟨_, _, _, rfl⟩ := h.frame
  exact ⟨hcount, rfl, rfl, rfl, hout, keepsInputs_of_out ⟨rfl, rfl, rfl, rfl, rfl, rfl⟩ rfl⟩

/-- A step of the scan ends the comparison, or leaves less to do, or is a choice that does nothing. -/
theorem ScanProgress.scanStep (hs : ScanStart s) (h : ScanProgress s done u) (pick : Option Nat) :
    ∃ u', scanStep pick u = .ok u' ∧ u'.inbox = u.inbox ∧
      (compared s u' ∨ ∃ done', ScanProgress s done' u' ∧
        (workLeft u' < workLeft u ∨ pick ≠ none ∧ workLeft u' = workLeft u)) := by
  rcases scanStep_cases h.canonical pick with ⟨i, hi, hen, hmove⟩ | ⟨hj, hjoin⟩ | ⟨hpick, hstay⟩
  · obtain ⟨done', u', hok, hprogress, hless, hin⟩ := h.laneMove hs hi hen
    exact ⟨u', hmove.trans hok, hin, .inr ⟨done', hprogress, .inl hless⟩⟩
  · exact ⟨_, hjoin, complete_inbox .., .inl (h.join hs hj)⟩
  · exact ⟨u, hstay, rfl, .inr ⟨done, h, .inr ⟨hpick, rfl⟩⟩⟩

end

/-! ### A step of the machine -/

theorem onlyLaneChoices_cases {es : List Event} (h : onlyLaneChoices es) :
    es = [] ∨ ∃ i rest, es = .engine i :: rest ∧ onlyLaneChoices rest := by
  cases es with
  | nil => exact .inl rfl
  | cons e rest =>
    obtain ⟨i, rfl⟩ := h e List.mem_cons_self
    exact .inr ⟨i, rest, rfl, fun e he => h e (List.mem_cons_of_mem _ he)⟩

/-- The scan that began in s is at u, and no host action is to come. -/
def comparing (s u : State) : Prop := (∃ done, ScanProgress s done u) ∧ onlyLaneChoices u.inbox

/-- The comparison whose scan began in s has ended, and no host action is to come. -/
def doneComparing (s u : State) : Prop := compared s u ∧ onlyLaneChoices u.inbox

/-- How many steps the comparison takes at most: the choices to come may do nothing. -/
def stepsLeft (s : State) : Nat := s.inbox.length + workLeft s

theorem ScanProgress.engine {s u : State} {done : List Point} (hs : ScanStart s) (h : ScanProgress s done u) :
    u.engine = .scanning := by
  obtain ⟨_, _, _, rfl⟩ := h.frame
  exact hs.engine

/-- Every step of a comparison ends it or brings its end nearer. -/
theorem comparing_step {s u : State} (hs : ScanStart s) (h : comparing s u) :
    ∃ u', step u = .next u' ∧ (doneComparing s u' ∨ comparing s u' ∧ stepsLeft u' < stepsLeft u) := by
  obtain ⟨⟨done, hp⟩, hin⟩ := h
  rcases onlyLaneChoices_cases hin with hnil | ⟨i, rest, hcons, hrest⟩
  · obtain ⟨u', hstep, hinbox, hnext⟩ := hp.scanStep hs none
    rw [← hinbox] at hin
    refine ⟨u', ?_, ?_⟩
    · rw [step_noEvent hnil, pdeStep_scanning none (hp.engine hs), hstep, settle_ok]
    · rcases hnext with hend | ⟨done', hp', hless | ⟨hpick, _⟩⟩
      · exact .inl ⟨hend, hin⟩
      · exact .inr ⟨⟨⟨done', hp'⟩, hin⟩, by unfold stepsLeft; rw [hinbox]; omega⟩
      · exact absurd rfl hpick
  · obtain ⟨u', hstep, hinbox, hnext⟩ := (hp.withInbox rest).scanStep hs (some i)
    have hin' : onlyLaneChoices u'.inbox := hinbox ▸ hrest
    refine ⟨u', ?_, ?_⟩
    · rw [step_engine hcons, pdeStep_scanning (some i) ((hp.withInbox rest).engine hs), hstep, settle_ok]
    · rcases hnext with hend | ⟨done', hp', hless⟩
      · exact .inl ⟨hend, hin'⟩
      · refine .inr ⟨⟨⟨done', hp'⟩, hin'⟩, ?_⟩
        have hsame : workLeft { u with inbox := rest } = workLeft u := rfl
        rw [hsame] at hless
        unfold stepsLeft
        rw [hinbox, hcons, List.length_cons]
        dsimp only
        omega

/-- A comparison that has ended stays ended: choices of a lane move nothing while the PDE is idle. -/
theorem doneComparing_step {s u u' : State} (h : doneComparing s u) (hstep : step u = .next u') :
    doneComparing s u' := by
  obtain ⟨hend, hin⟩ := h
  have hidle : u.engine = .idle := (busy_eq_false_iff u).1 hend.1.1
  have hpde : ∀ (pick : Option Nat) (v : State), v.engine = u.engine → pdeStep pick v = .next v := by
    intro pick v hv
    rw [pdeStep, hv, hidle]
  rcases onlyLaneChoices_cases hin with hnil | ⟨i, rest, hcons, hrest⟩
  · rw [step_noEvent hnil, hpde none u rfl] at hstep
    cases hstep
    exact ⟨hend, hin⟩
  · rw [step_engine hcons, hpde (some i) { u with inbox := rest } rfl] at hstep
    cases hstep
    exact ⟨hend, hrest⟩

/-! ### Runs -/

theorem runSteps_zero (s : State) : runSteps 0 s = .next s := rfl

theorem runSteps_succ_next_iff (k : Nat) (s t : State) :
    runSteps (k + 1) s = .next t ↔ ∃ u, step s = .next u ∧ runSteps k u = .next t := by
  constructor
  · intro h
    cases hstep : step s with
    | next u => exact ⟨u, rfl, runSteps_succ_of_step k hstep ▸ h⟩
    | fault f =>
      have hcore : Sys2Proof.core.step s = .fault f := hstep
      simp only [runSteps, Host.Core.run, hcore] at h
      cases h
    | refused r =>
      have hcore : Sys2Proof.core.step s = .refused r := hstep
      simp only [runSteps, Host.Core.run, hcore] at h
      cases h
  · rintro ⟨u, hstep, h⟩
    exact (runSteps_succ_of_step k hstep).trans h

/-- What every step keeps, a run keeps. -/
theorem runSteps_keeps {P : State → Prop} (hstep : ∀ u u', P u → step u = .next u' → P u') {n : Nat} {s t : State}
    (hs : P s) (h : runSteps n s = .next t) : P t := by
  induction n generalizing s with
  | zero =>
    cases h
    exact hs
  | succ n ih =>
    obtain ⟨u, hu, h⟩ := (runSteps_succ_next_iff ..).1 h
    exact ih (hstep s u hs hu) h

theorem comparing_busy {s u : State} (hs : ScanStart s) (h : comparing s u) : u.busy = true := by
  obtain ⟨⟨_, hp⟩, _⟩ := h
  rw [State.busy, hp.engine hs]

/-- A run of a comparison that is over has its result. -/
theorem compared_of_run {s u t : State} {n : Nat} (hs : ScanStart s) (hu : comparing s u)
    (hrun : runSteps n u = .next t) (ht : t.busy = false) : compared s t := by
  have hkept : comparing s t ∨ doneComparing s t := by
    refine runSteps_keeps (P := fun v => comparing s v ∨ doneComparing s v) (fun v v' hv hstep => ?_) (.inl hu) hrun
    rcases hv with hv | hv
    · obtain ⟨w, hw, hnext⟩ := comparing_step hs hv
      rw [hstep] at hw
      cases hw
      exact hnext.symm.imp_left And.left
    · exact .inr (doneComparing_step hv hstep)
  rcases hkept with h | h
  · rw [comparing_busy hs h] at ht
    cases ht
  · exact h.1

/-- A comparison is over after at most the steps that are left. -/
theorem run_ends_of_comparing {s : State} (hs : ScanStart s) (m : Nat) {u : State} (hu : comparing s u)
    (hm : stepsLeft u ≤ m) : ∃ n t, n ≤ m ∧ runSteps n u = .next t ∧ t.busy = false := by
  induction m generalizing u with
  | zero =>
    unfold stepsLeft workLeft at hm
    omega
  | succ m ih =>
    obtain ⟨u', hstep, hend | ⟨hu', hless⟩⟩ := comparing_step hs hu
    · exact ⟨1, u', by omega, (runSteps_succ_of_step 0 hstep).trans (runSteps_zero u'), hend.1.1.1⟩
    · obtain ⟨n, t, hn, hrun, ht⟩ := ih hu' (by omega)
      exact ⟨n + 1, t, by omega, (runSteps_succ_of_step n hstep).trans hrun, ht⟩

theorem comparing_of_start {s : State} (hs : ScanStart s) (hin : onlyLaneChoices s.inbox) : comparing s s :=
  ⟨⟨[], hs.progress⟩, hin⟩

/-- Settles O51: whichever lanes move, the run keeps the progress of its scan, and the join makes the result of it. -/
theorem everyScheduleGivesTheSameResult : Obligations.EveryScheduleGivesTheSameResult := by
  intro s0 s t n hexec he hs0 hj hin hrun ht
  obtain rfl := eq_startScan_of_exec hexec he
  have hstart := ScanStart.of_startScan hs0 hj
  rw [← startScan_inbox s0] at hin
  obtain ⟨hend, hcount, hres, hvalid, hdropped, hout, hinputs⟩ :=
    compared_of_run hstart (comparing_of_start hstart hin) hrun ht
  rw [startScan_opts] at hvalid
  rw [startScan_status] at hdropped
  obtain ⟨hops, hcells⟩ := keepsInputs_trans (keepsInputs_startScan s0) hinputs
  exact ⟨hend, hcount, hres, hvalid, hdropped, hout, hcells, hops⟩

/-- Before its first step a scan has every row to come. -/
theorem ScanStart.workLeft_eq {s : State} (hs : ScanStart s) :
    workLeft s = s.descA.height * (s.descA.width + 2) + 1 := by
  rw [workLeft, hs.scan]
  rfl

/-- Settles O52: at its start a scan has that many steps left, and every step brings the end nearer. -/
theorem everyComparisonEnds : Obligations.EveryComparisonEnds := by
  intro s0 s hexec he hs0 hj hin
  obtain rfl := eq_startScan_of_exec hexec he
  have hstart := ScanStart.of_startScan hs0 hj
  have hleft : stepsLeft (startScan s0) =
      s0.inbox.length + (s0.descA.h.toNat * (s0.descA.w.toNat + 2) + 1) := by
    rw [stepsLeft, hstart.workLeft_eq, startScan_inbox, startScan_descA]
    rfl
  rw [← startScan_inbox s0] at hin
  exact run_ends_of_comparing hstart _ (comparing_of_start hstart hin) hleft.le

end Sys2Proof.Machine
end

section
/-! The errors of commands and the idle PDE (O13, O16, O18, O19): the precheck as the list of its conditions, the three ways
a command's first step ends, the four commands that have no gate, and the step with BUSY = 0. -/

namespace Sys2Proof.Machine

/-! ### The first of a list of conditions (`60_exceptions.md` R212) -/

theorem firstThat_cons (cond : Bool) (e : CmdError) (rest : List (Bool × CmdError)) :
    firstThat ((cond, e) :: rest) = if cond then some e else firstThat rest := rfl

theorem firstThat_singleton (cond : Bool) (e : CmdError) : firstThat [(cond, e)] = if cond then some e else none := rfl

theorem firstThat_append (l m : List (Bool × CmdError)) : firstThat (l ++ m) = (firstThat l).or (firstThat m) := by
  induction l with
  | nil => rfl
  | cons c l ih =>
    obtain ⟨cond, e⟩ := c
    rw [List.cons_append, firstThat_cons, firstThat_cons, ih]
    cases cond <;> rfl

/-- A test that runs buffer by buffer answers for the first buffer that fails it. -/
theorem firstThat_flatMap {α : Type} (f : α → List (Bool × CmdError)) (l : List α) :
    firstThat (l.flatMap f) = l.findSome? fun a => firstThat (f a) := by
  induction l with
  | nil => rfl
  | cons a l ih =>
    rw [List.flatMap_cons, firstThat_append, ih, List.findSome?_cons]
    cases firstThat (f a) <;> rfl

theorem firstThat_map {α : Type} (cond : α → Bool) (e : α → CmdError) (l : List α) :
    firstThat (l.map fun a => (cond a, e a)) = l.findSome? fun a => if cond a then some (e a) else none := by
  rw [List.map_eq_flatMap, firstThat_flatMap]
  rfl

/-! ### Each check by its conditions (`60_exceptions.md` R202 to R205) -/

theorem emptyCheck_eq (s : State) (sel : Sel) :
    emptyCheck s sel =
      if decide ((s.desc sel).w = 0#16) || decide ((s.desc sel).h = 0#16) then some .emptyImage else none := by
  unfold emptyCheck
  congr 1
  rw [Desc.empty_iff, Bool.or_eq_true, decide_eq_true_eq, decide_eq_true_eq]

theorem dimsCheck_eq (s : State) (c : Checks) :
    dimsCheck s c = firstThat [(c.dims && decide (Sel.a ∈ c.bufs) && decide (Sel.b ∈ c.bufs) &&
      (decide (s.descA.w ≠ s.descB.w) || decide (s.descA.h ≠ s.descB.h)), .dimensionsMismatch)] := by
  have hdims : (!sameDims s.descA s.descB) =
      (decide (s.descA.w ≠ s.descB.w) || decide (s.descA.h ≠ s.descB.h)) := by
    rw [Bool.eq_iff_iff, Bool.not_eq_true', ← Bool.not_eq_true, sameDims_iff, not_and_or, Bool.or_eq_true,
      decide_eq_true_eq, decide_eq_true_eq]
  rw [dimsCheck, hdims, List.contains_eq_mem, List.contains_eq_mem]
  rfl

theorem modelCheck_eq (s : State) (sel : Sel) :
    modelCheck s sel = if decide (9 < (s.desc sel).model.toNat) then some (.unsupportedFormat sel) else none := by
  simp only [modelCheck, decide_eq_true_eq]

theorem geometryCheck_eq (s : State) (sel : Sel) :
    geometryCheck s sel = firstThat
      [(decide ((s.desc sel).stride.toNat < (s.desc sel).w.toNat * bytesPerPixel (s.desc sel).model),
          .badParam (.stride sel)),
       (decide ((s.desc sel).len.toNat < (s.desc sel).stride.toNat * (s.desc sel).h.toNat), .badParam (.len sel))] := by
  simp only [firstThat_cons, decide_eq_true_eq]
  rfl

/-- Without the options of the comparison neither condition holds. -/
theorem optionsCheck_eq (s : State) (c : Checks) :
    optionsCheck s c = firstThat
      [(c.options && !(fle cZero s.opts.threshold && fle s.opts.threshold cOne), .badParam .thresholdRange),
       (c.options && !(fle cZero s.opts.alpha && fle s.opts.alpha cOne), .badParam .alphaRange)] := by
  rw [firstThat_cons, firstThat_singleton, optionsCheck, thresholdCheck, alphaCheck, ← inUnitRange, ← inUnitRange]
  cases c.options with
  | false => rfl
  | true => cases inUnitRange s.opts.threshold <;> cases inUnitRange s.opts.alpha <;> rfl

theorem inside_point (d : Desc) (p : PointReg) : d.inside p.point = !outsideBuffer d p := by
  rw [Bool.eq_iff_iff, Desc.inside_iff, Bool.not_eq_true', outsideBuffer, Bool.or_eq_false_iff, decide_eq_false_iff_not,
    decide_eq_false_iff_not, Nat.not_le, Nat.not_le]
  rfl

/-- A point that is not used has no condition. -/
theorem pointCheck_eq (s : State) (p : PointReg) (bad : BadParam) (buf : Option Sel) :
    pointCheck s p bad buf =
      firstThat (buf.toList.map fun sel => (outsideBuffer (s.desc sel) p, .badParam bad)) := by
  cases buf with
  | none => rfl
  | some sel =>
    rw [pointCheck, inside_point, Option.toList_some, List.map_singleton, firstThat_singleton]
    cases outsideBuffer (s.desc sel) p <;> rfl

/-- The first of a list put together from the six steps is the answer of the first step that has one. -/
theorem firstThat_precheckList (s : State) (c : Checks) :
    firstThat (precheckList s c) =
      (c.bufs.findSome? (emptyCheck s)).or ((dimsCheck s c).or ((c.bufs.findSome? (modelCheck s)).or
        ((c.bufs.findSome? (geometryCheck s)).or ((optionsCheck s c).or (pointsCheck s c))))) := by
  have hempty := funext (emptyCheck_eq s)
  have hmodel := funext (modelCheck_eq s)
  have hgeometry := funext (geometryCheck_eq s)
  rw [hempty, hmodel, hgeometry, dimsCheck_eq, optionsCheck_eq, pointsCheck, pointCheck_eq, pointCheck_eq, precheckList]
  simp only [firstThat_append, firstThat_flatMap, firstThat_map, Option.or_assoc]

/-- Settles O16: the document's gates are steps 1 and 2 of the list, the hardware's own gates steps 3 to 6. -/
theorem precheckIsTheOrderedList : Obligations.PrecheckIsTheOrderedList := by
  intro s c
  rw [firstThat_precheckList, precheck, documentGates, hardwareGates, Option.or_assoc]

/-! ### How a command's first step ends (`60_exceptions.md` R200, R201, R211, R213) -/

/-- With an error, with none, or with the scan of a comparison begun. -/
theorem exec_next_cases {i : Instr} {s t : State} (h : exec i s = .next t) :
    (∃ e, t = raiseError e s) ∨ ended t none ∨ t = startScan s := by
  by_cases hi : i = .cmp
  · subst hi
    rcases execCmp_next_cases h with ⟨e, _, ht⟩ | ⟨_, _, rfl⟩ | ⟨_, _, e, _, ht⟩ | ⟨_, _, _, ht⟩
    · exact .inl ⟨e, ht⟩
    · exact .inr (.inl (ended_complete none _))
    · exact .inl ⟨e, ht⟩
    · exact .inr (.inr ht)
  · rcases execHelper_next_cases hi h with herr | ⟨r, rfl⟩
    · exact .inl herr
    · exact .inr (.inl (ended_complete none _))

/-- Settles O18: an error that the command did not find in STATUS is one that it raised. -/
theorem errorsChangeOnlyStatus : Obligations.ErrorsChangeOnlyStatus := by
  intro i s t e hs hnone h herr
  rcases exec_next_cases h with ⟨e', rfl⟩ | ⟨_, _, hend⟩ | rfl
  · have hraised : (raiseError e' s).status.err = some e' := (ended_complete (some e') s).2.2
    obtain rfl : e' = e := Option.some.inj (hraised.symm.trans herr)
    exact refusedWith_raiseError hs e'
  · rw [hend] at herr
    cases herr
  · rw [startScan_status, hnone] at herr
    cases herr

/-- Settles O19: none of the four has a gate; IDENT may stop at an unwritten byte and then has no next state. -/
theorem fourCommandsNeverFail : Obligations.FourCommandsNeverFail := by
  intro i s t hi h
  rw [List.mem_cons, List.mem_cons, List.mem_cons, List.mem_singleton] at hi
  rcases hi with rfl | rfl | rfl | rfl
  · cases h
    exact ended_complete none _
  · obtain ⟨same, _, hend⟩ := (bind_ok_iff _ _ _).1 ((settle_next_iff _ _).1 h)
    cases hend
    exact ended_complete none _
  · cases h
    exact ended_complete none _
  · cases h
    exact ended_complete none _

/-! ### The PDE with BUSY = 0 (`60_exceptions.md` R221) -/

theorem pdeStep_idle {s : State} (pick : Option Nat) (hb : s.busy = false) : pdeStep pick s = .next s := by
  unfold pdeStep
  rw [(busy_eq_false_iff s).1 hb]

/-- Settles O13. -/
theorem idleMachineStaysAsItIs : Obligations.IdleMachineStaysAsItIs := by
  intro s hb
  refine ⟨fun pick => pdeStep_idle pick hb, fun h => ?_, fun i rest h => ?_⟩
  · rw [step_noEvent h, pdeStep_idle none hb]
  · rw [step_engine h, pdeStep_idle (some i) (s := { s with inbox := rest }) hb]

end Sys2Proof.Machine
end

section
/-! The hazards and the reset (O15, O58). The PDE looks at the mark of a forbidden access only when a command ends: so
marking the command commutes with every step, up to the one operation `withMark` on the state after it. -/

namespace Sys2Proof.Machine

/-! ### The reset (`70_reset_and_hazards.md` R231 to R233) -/

theorem step_reset {s : State} {rest : List Event} (h : s.inbox = .reset :: rest) :
    step s = .next (hardwareReset { s with inbox := rest }) := by
  unfold step turn
  rw [h]
  rfl

/-- The registers after a reset do not depend on the outside, which the reset leaves as it is. -/
theorem regValue_hardwareReset (s : State) (r : Reg) : regValue (hardwareReset s) r = regValue State.reset r := by
  cases r <;> rfl

/-- Settles O15: the state after a reset is `State.reset` but for the outside. -/
theorem resetFromAnyState : Obligations.ResetFromAnyState := fun _ _ h =>
  ⟨_, step_reset h, rfl, rfl, regValue_hardwareReset _, rfl, readByte_reset, palette_reset, rfl⟩

/-! ### A host access to a space while BUSY = 1 (`70_reset_and_hazards.md` R240) -/

section
variable {s : State} (hb : s.busy = true)
include hb

theorem hostStore_busy {sp : ByteSpace} {off : Nat} (v : Byte) (hoff : off < spaceSize sp) :
    hostStore sp off v s = .next (touch s) := by
  rw [hostStore, if_pos hoff, if_pos hb]

theorem hostLoad_busy {sp : ByteSpace} {off : Nat} (hoff : off < spaceSize sp) :
    hostLoad sp off s = .next (readFree (touch s)) := by
  rw [hostLoad, if_pos hoff, if_pos hb]

theorem hostPalStore_busy (sel : Sel) {i : Nat} (v : ColorWord) (hi : i < palSize) :
    hostPalStore sel i v s = .next (touch s) := by
  rw [hostPalStore, if_pos hi, if_pos hb]

theorem hostPalLoad_busy (sel : Sel) {i : Nat} (hi : i < palSize) :
    hostPalLoad sel i s = .next (readFree (touch s)) := by
  rw [hostPalLoad, if_pos hi, if_pos hb]

end

/-! ### The units do not look at the mark -/

theorem sameView_touch (s : State) : SameView s (touch s) := ⟨rfl, rfl, rfl, rfl, rfl, rfl, rfl, rfl⟩

theorem identicalBytes_congr {s t : State} (h : SameView s t) : identicalBytes t = identicalBytes s := by
  unfold identicalBytes
  simp only [h.descA, h.descB, imgBytes_congr h]

/-! ### What the mark makes of the state after a step -/

/-- Where a step of the unmarked command leads to u: a marked command that still runs keeps its mark, and one that has
ended has COUNT, MAXDELTA and its output scrambled. -/
def withMark (u : State) : State := if u.busy then touch u else scramble u

theorem withMark_of_busy {u : State} (h : u.busy = true) : withMark u = touch u := if_pos h

theorem withMark_of_idle {u : State} (h : u.busy = false) : withMark u = scramble u :=
  if_neg (Bool.eq_false_iff.1 h)

theorem busy_of_scanning {s : State} (h : s.engine = .scanning) : s.busy = true := by
  unfold State.busy
  rw [h]

/-- A completion is where the mark takes effect. -/
theorem complete_touch (e : Option CmdError) {s : State} (h : s.touched = false) :
    complete e (touch s) = withMark (complete e s) := by
  rw [withMark_of_idle (busy_complete e s), complete_untouched e h]
  rfl

/-- A success in states that differ in the mark. -/
theorem succeed_touch {t t' : State} (ht : t.touched = false) (h : t' = touch t) :
    succeed t' = withMark (succeed t) :=
  h ▸ complete_touch none ht

theorem zeroFill_touch (s : State) : zeroFill (touch s) = touch (zeroFill s) := by
  have hout : (touch s).opts.flags.outputEn = s.opts.flags.outputEn := rfl
  unfold zeroFill
  rw [hout]
  split <;> rfl

theorem startScan_touch (s : State) : startScan (touch s) = withMark (startScan s) := by
  rw [withMark_of_busy (busy_startScan s)]
  exact zeroFill_touch { withMaxDelta s with engine := .scanning, scan := Scan.clear }

theorem applyVerdict_touch (s : State) (i : Nat) (v : Verdict) :
    applyVerdict (touch s) i v = touch (applyVerdict s i v) := by
  unfold applyVerdict
  split <;> rfl

/-! ### Outcomes with their next state changed -/

theorem settle_mapNext (g : State → State) (r : Except Fault State) :
    settle (r.map g) = mapNext g (settle r) := by
  cases r <;> rfl

/-- The same computation, with a state made of its value that g changes. -/
theorem bind_ok_map {α : Type} {g : State → State} {x x' : Except Fault α} {f f' : α → State} (hx : x' = x)
    (hf : ∀ a, f' a = g (f a)) :
    (x' >>= fun a => .ok (f' a)) = (x >>= fun a => .ok (f a) : Except Fault State).map g := by
  subst hx
  cases x' with
  | error e => rfl
  | ok a => exact congrArg Except.ok (hf a)

/-- A command behind the same gates, whose body the mark changes as it does a step. -/
theorem behindGates_touch {s : State} (h : s.touched = false) {gate : Option CmdError}
    {body body' : Except Fault State} (hbody : body' = body.map withMark) :
    behindGates gate (touch s) body' = mapNext withMark (behindGates gate s body) := by
  cases gate with
  | none => exact hbody ▸ settle_mapNext withMark body
  | some e => exact congrArg Host.Outcome.next (complete_touch (some e) h)

/-! ### The steps of a marked command -/

section
variable {s : State} (h : s.touched = false)
include h

theorem cmpPastIdentity_touch : cmpPastIdentity (touch s) = withMark (cmpPastIdentity s) := by
  have hgates : hardwareGates (touch s) cmpChecks = hardwareGates s cmpChecks := rfl
  unfold cmpPastIdentity
  rw [hgates]
  split
  · exact complete_touch _ h
  · exact startScan_touch s

theorem exec_touch (i : Instr) : exec i (touch s) = mapNext withMark (exec i s) := by
  have hview := sameView_touch s
  cases i with
  | cmp =>
    refine behindGates_touch h ?_
    rw [identicalBytes_congr hview]
    cases identicalBytes s with
    | error f => rfl
    | ok same =>
      cases same with
      | true => exact congrArg Except.ok (succeed_touch h rfl)
      | false => exact congrArg Except.ok (cmpPastIdentity_touch h)
  | pixel =>
    exact behindGates_touch h
      (bind_ok_map (judge_congr (sameView_touch (withMaxDelta s)) _) fun v => succeed_touch h rfl)
  | dimeq => exact congrArg Host.Outcome.next (succeed_touch h rfl)
  | ident =>
    refine Eq.trans ?_ (settle_mapNext withMark _)
    exact congrArg settle (bind_ok_map (identicalBytes_congr hview) fun same => succeed_touch h rfl)
  | pos sel1 => exact behindGates_touch h (congrArg Except.ok (succeed_touch h rfl))
  | rdpix sel1 => exact behindGates_touch h (bind_ok_map (canonPixel_congr hview sel1 _) fun c => succeed_touch h rfl)
  | yiq => exact congrArg Host.Outcome.next (succeed_touch h rfl)
  | blendw => exact congrArg Host.Outcome.next (succeed_touch h rfl)
  | graybl => exact behindGates_touch h (congrArg Except.ok (succeed_touch h rfl))
  | cdelta onlyY sel1 sel2 =>
    exact behindGates_touch h
      (bind_ok_map (delta_congr hview sel1 _ sel2 _ onlyY) fun d => succeed_touch h rfl)
  | samenb sel1 n =>
    exact behindGates_touch h (bind_ok_map (sameNeighbors_congr hview sel1 _ n) fun v => succeed_touch h rfl)
  | aa sel1 sel2 =>
    exact behindGates_touch h (bind_ok_map (antialiased_congr hview sel1 sel2 _) fun v => succeed_touch h rfl)

theorem join_touch : join (touch s) = withMark (join s) := succeed_touch h rfl

end

/-- A lane's step leaves the scan running, so that the mark stays. -/
theorem laneMove_touch {s : State} (he : s.engine = .scanning) (i : Nat) :
    laneMove (touch s) i = (laneMove s i).map withMark := by
  have hd : canDispatch (touch s) i = canDispatch s i := rfl
  have hp : canPixelStep (touch s) i = canPixelStep s i := rfl
  have hr : canRetire (touch s) i = canRetire s i := rfl
  have hrun : ∀ u : State, u.engine = s.engine → withMark u = touch u := fun u hu =>
    withMark_of_busy (busy_of_scanning (hu.trans he))
  unfold laneMove
  rw [hd, hp, hr]
  split
  · exact congrArg Except.ok (hrun (dispatch s i) rfl).symm
  · split
    · exact bind_ok_map (judge_congr (sameView_touch s) _) fun v =>
        (applyVerdict_touch s i v).trans (hrun _ (applyVerdict_engine s i v)).symm
    · split
      · exact congrArg Except.ok (hrun (retire s i) rfl).symm
      · exact congrArg Except.ok (hrun s rfl).symm

theorem scanStep_touch {s : State} (h : s.touched = false) (he : s.engine = .scanning) (pick : Option Nat) :
    scanStep pick (touch s) = (scanStep pick s).map withMark := by
  cases pick with
  | none =>
    have hfirst : firstActive (touch s).scan.lanes = firstActive s.scan.lanes := rfl
    have hd : canDispatch (touch s) 0 = canDispatch s 0 := rfl
    unfold scanStep defaultScanStep
    rw [hfirst, hd]
    cases firstActive s.scan.lanes with
    | some i => exact laneMove_touch he i
    | none =>
      dsimp only
      split
      · exact congrArg Except.ok (withMark_of_busy (u := dispatch s 0) (busy_of_scanning he)).symm
      · exact congrArg Except.ok (join_touch h)
  | some i =>
    have hl : laneEnabled (touch s) i = laneEnabled s i := rfl
    have hj : canJoin (touch s) = canJoin s := rfl
    unfold scanStep chosenScanStep
    dsimp only
    rw [hl, hj]
    split
    · exact laneMove_touch he i
    · split
      · exact congrArg Except.ok (join_touch h)
      · exact congrArg Except.ok (withMark_of_busy (busy_of_scanning he)).symm

/-- A marked command takes the steps and the faults of the unmarked one, up to `withMark`. -/
theorem pdeStep_touch {s : State} (hb : s.busy = true) (h : s.touched = false) (pick : Option Nat) :
    pdeStep pick (touch s) = mapNext withMark (pdeStep pick s) := by
  cases he : s.engine with
  | idle =>
    rw [(busy_eq_false_iff s).2 he] at hb
    cases hb
  | accepted w =>
    rw [pdeStep_accepted pick he, pdeStep_accepted (s := touch s) pick he]
    unfold runLatched
    split
    · exact exec_touch h _
    · exact congrArg Host.Outcome.next (complete_touch _ h)
  | scanning =>
    rw [pdeStep_scanning pick he, pdeStep_scanning (s := touch s) pick he, scanStep_touch h he pick, settle_mapNext]

/-! ### The unmarked command -/

/-- No mark has been made and no free value used. -/
def unmarked (s t : State) : Prop := t.touched = false ∧ t.freeCtr = s.freeCtr

theorem unmarked_complete (e : Option CmdError) {s t : State} (h : t.touched = false) (hctr : t.freeCtr = s.freeCtr) :
    unmarked s (complete e t) := by
  rw [complete_untouched e h]
  exact ⟨h, hctr⟩

section
variable {s t : State} (h : s.touched = false)
include h

theorem unmarked_exec {i : Instr} (hexec : exec i s = .next t) : unmarked s t := by
  by_cases hi : i = .cmp
  · subst hi
    rcases execCmp_next_cases hexec with ⟨e, _, rfl⟩ | ⟨_, _, rfl⟩ | ⟨_, _, e, _, rfl⟩ | ⟨_, _, _, rfl⟩
    · exact unmarked_complete _ h rfl
    · exact unmarked_complete _ h rfl
    · exact unmarked_complete _ h rfl
    · exact ⟨(startScan_touched s).trans h, startScan_freeCtr s⟩
  · rcases execHelper_next_cases hi hexec with ⟨e, rfl⟩ | ⟨r, rfl⟩
    · exact unmarked_complete _ h rfl
    · exact unmarked_complete _ h rfl

theorem unmarked_scanStep {pick : Option Nat} (hscan : scanStep pick s = .ok t) : unmarked s t := by
  rcases scanStep_ok_cases hscan with ⟨i, hmove, _⟩ | ⟨_, rfl⟩ | ⟨_, rfl⟩
  · rcases laneMove_ok_cases hmove with ⟨_, rfl⟩ | ⟨_, v, _, rfl⟩ | ⟨_, rfl⟩ | ⟨_, _, _, rfl⟩
    · exact ⟨h, rfl⟩
    · exact ⟨(applyVerdict_touched s i v).trans h, applyVerdict_freeCtr s i v⟩
    · exact ⟨h, rfl⟩
    · exact ⟨h, rfl⟩
  · exact unmarked_complete _ h rfl
  · exact ⟨h, rfl⟩

theorem unmarked_pdeStep {pick : Option Nat} (hstep : pdeStep pick s = .next t) : unmarked s t := by
  rcases pdeStep_next_cases hstep with ⟨_, rfl⟩ | ⟨w, i, _, _, hexec⟩ | ⟨_, _, _, _, rfl⟩ | ⟨_, hscan⟩
  · exact ⟨h, rfl⟩
  · exact unmarked_exec h hexec
  · exact unmarked_complete _ h rfl
  · exact unmarked_scanStep h hscan

end

/-! ### What `scramble` frees and what it leaves -/

theorem sameButOutput_scramble {u : State} (h : u.touched = false) : sameButOutput (outBytes u) u (scramble u) := by
  obtain ⟨hops, hinputs⟩ : keepsInputs u (scramble u) := keepsInputs_of_out ⟨rfl, rfl, rfl, rfl, rfl, rfl⟩ rfl
  exact ⟨hops, hinputs, rfl, rfl, rfl, rfl, keepsOutBeyond_of_fill rfl, h.symm, rfl, rfl⟩

theorem readByte_scramble_out {u : State} {k : Nat} (hk : k < outBytes u) :
    readByte (scramble u).mem .out k = some ((Config.freeValue (u.freeCtr + 2 + k)).setWidth 8) :=
  (cellGet_fillBytes ..).trans (if_pos hk)

/-- Settles O58: the step of the marked command is that of the unmarked one up to `withMark`, which keeps the mark while
the command runs and is `scramble` at its end. -/
theorem forbiddenAccessStaysInTheCommand : Obligations.ForbiddenAccessStaysInTheCommand := by
  refine ⟨fun s sp off v hb hoff => ⟨hostStore_busy hb v hoff, hostLoad_busy hb hoff⟩,
    fun s sel i v hb hi => ⟨hostPalStore_busy hb sel v hi, hostPalLoad_busy hb sel hi⟩, fun pick s hb hs => ?_⟩
  have hmarked : pdeStep pick { s with touched := true } = mapNext withMark (pdeStep pick s) :=
    pdeStep_touch hb hs pick
  refine ⟨fun f hf => ?_, fun u hu hrun => ?_, fun u hu hend => ?_⟩
  · rw [hmarked, hf]
    rfl
  · rw [hmarked, hu]
    exact congrArg Host.Outcome.next (withMark_of_busy hrun)
  · obtain ⟨htouch, hctr⟩ := unmarked_pdeStep hs hu
    obtain ⟨⟨_, hdesc, _⟩, _⟩ := pdeNeverWritesItsInputs pick s u hu
    have hout : outBytes u = outBytes s := by rw [outBytes, outBytes, hdesc]
    rw [hmarked, hu, ← hctr, ← hout]
    exact ⟨scramble u, congrArg Host.Outcome.next (withMark_of_idle hend), sameButOutput_scramble htouch, rfl, rfl,
      fun k hk => readByte_scramble_out hk, rfl⟩

end Sys2Proof.Machine
end
